-- ==== Sys2Proof/Word.lean ====
section
/-! DEFINITION. The widths of the spec's values (00_scope.md R5, 10_state.md R11, R18). -/

namespace Sys2Proof

/-- WORD_W: a verb word and a response are 32 bits (R5, R50). -/
abbrev Word := BitVec 32

/-- NODE_W: a node id is 7 bits (R5). -/
abbrev NodeId := BitVec 7

/-- VERB_W: a verb id is 12 bits (R5). -/
abbrev VerbId := BitVec 12

/-- IDX_W: a coefficient index is 8 bits (R5). -/
abbrev Index := BitVec 8

/-- COEF_W: one coefficient register, and the payload of form L, is 16 bits (R5, D8). -/
abbrev Coef := BitVec 16

end Sys2Proof
end

