-- ==== Sys2Proof/Config.lean ====
section
/-! DEFINITION. The parameters of 00_scope.md R5 and the free values of the spec (what R4, R18, R21, R94, R126 leave open).
A free value is an opaque constant: nothing in Lean can evaluate it, so a theorem holds whatever it is. -/

namespace Sys2Proof

/-- Which far end of the channel answers (R4). -/
inductive FarEnd where
  /-- The normative far end: an oracle, of which only R93 may be assumed (R94). -/
  | device
  /-- The reference responder of R96 to R102, the deterministic oracle for tests. -/
  | reference
  deriving DecidableEq, Repr

/-- The parameters of R5 that are OPEN, and the choice of far end. Fixed when the model is instantiated (R167). -/
structure Params where
  /-- NODE_LSB, bit position of the least significant bit of the node id field (D2). -/
  nodeLsb : Nat
  /-- VERB_SEL, verb id of COEF_SELECT (D5). -/
  verbSel : VerbId
  /-- VERB_RD, verb id of COEF_READ (D5). -/
  verbRd : VerbId
  /-- VERB_WR, verb id of COEF_WRITE (D5). -/
  verbWr : VerbId
  /-- PROBE, the fixed payload of COEF_READ (D6). -/
  probe : Coef
  /-- COEF_NODE, the node id at which the coefficient port lives (D27, R96, R168). -/
  coefNode : NodeId
  /-- The far end the channel leads to (R4). -/
  farEnd : FarEnd
  deriving DecidableEq, Repr

/-! Free values. The first argument is the state's draw counter, so that two draws are never the same value by
construction; the second, where the draw answers a command, is the command word. -/

/-- Whether the channel answers `ChannelError` (R4, R94). -/
opaque Config.drawError : Nat → Word → Bool

/-- The response of a device, 32 unconstrained bits (R4, R94). -/
opaque Config.drawResponse : Nat → Word → Word

/-- The index pointer of a device where the spec leaves it open (U13, U14). -/
opaque Config.drawPointer : Nat → Word → Index

/-- What each coefficient of a device holds at an exchange; it may change at any time (R18, R42, U9 to U11). -/
opaque Config.drawCoef : Nat → Word → Nat → Coef

/-- The content of a register the spec calls unspecified (R21 after the reset event, R126 after a failure) or leaves
open (R173, STATUS and RESULT after a start); the second argument numbers the register. -/
opaque Config.drawRegister : Nat → Nat → Coef

end Sys2Proof
end

