-- ==== Sys2Proof/Syntax.lean ====
section
/-! DEFINITION. The operations of the opcode table (30_encoding.md R58, R60) and the words they travel in. -/

namespace Sys2Proof

/-- One constructor per row of the opcode table. The five verbs are one exchange each; ENCODE, DECODE and UPDATE are
port operations, whose operands are 32 bits wide and truncated inside (10_state.md R16). -/
inductive Instr where
  /-- `VERB.S node, verb, payload`: any verb, short payload (R51, R60). -/
  | verbS (node : NodeId) (verb : VerbId) (payload : BitVec 8)
  /-- `VERB.L node, verb, payload`: any other verb, long payload (R52, R60). -/
  | verbL (node : NodeId) (verb : VerbId) (payload : BitVec 16)
  /-- `SEL node, index` (R90). -/
  | coefSelect (node : NodeId) (index : Index)
  /-- `RD node` (R91). -/
  | coefRead (node : NodeId)
  /-- `WR node, data` (R92). -/
  | coefWrite (node : NodeId) (data : Coef)
  /-- ENCODE on the ports enc_node, enc_verb, enc_payload, enc_wide (R70). -/
  | encode (node verb payload : BitVec 32) (wide : Bool)
  /-- DECODE on the ports dec_word, dec_wide (R73). -/
  | decode (word : Word) (wide : Bool)
  /-- `UPDATE node, index, mask, value` on the ports upd_node to upd_value (R110). -/
  | update (node index mask value : BitVec 32)
  deriving DecidableEq, Repr

/-- A verb word with its side-band form bit: the form is not recorded in the word (R55). -/
structure VerbWord where
  word : Word
  /-- 0 form S, 1 form L (R16). -/
  wide : Bool
  deriving DecidableEq, Repr

/-- The triple DECODE yields, each at its port width (R73, R16). -/
structure Fields where
  node : NodeId
  verb : VerbId
  payload : BitVec 16
  deriving DecidableEq, Repr

/-- Why bits are no instruction of the table. -/
inductive DecodeError where
  /-- A bit of the word that no field covers is set; no ENCODE produces such a word (R54, R59). Safe: `step` still
  exchanges the word as it stands. -/
  | uncoveredBits
  /-- The instruction is not exactly one 32-bit word (R50). Safe. -/
  | notOneWord
  deriving DecidableEq, Repr

end Sys2Proof
end

