-- ==== Sys2Proof/WellFormed.lean ====
section
/-! DEFINITION. The constraints of R5 on the parameters, and when an instruction is one the table's row admits. -/

namespace Sys2Proof

/-- The four bits of a verb id that form L transmits, `verb[11:8]` (R52). -/
def VerbId.high (v : VerbId) : BitVec 4 := v.extractLsb' 8 4

/-- The eight bits of a verb id that form L drops, `verb[7:0]` (R52). -/
def VerbId.low (v : VerbId) : BitVec 8 := v.extractLsb' 0 8

/-- R5's constraints: 20 <= NODE_LSB <= 25; the three verb ids have bits [7:0] zero and differ pairwise in bits
[11:8]. -/
def Params.wellFormed (c : Params) : Bool :=
  decide (20 ≤ c.nodeLsb) && decide (c.nodeLsb ≤ 25)
    && c.verbSel.low == 0 && c.verbRd.low == 0 && c.verbWr.low == 0
    && c.verbSel.high != c.verbRd.high && c.verbSel.high != c.verbWr.high && c.verbRd.high != c.verbWr.high

/-- A form L verb whose transmitted fields are those of a named row of R58: COEF_SELECT (`payload[15:8]` zero),
COEF_READ (payload PROBE) or COEF_WRITE. -/
def Params.namedVerb (c : Params) (high : BitVec 4) (payload : BitVec 16) : Bool :=
  (high == c.verbSel.high && payload.extractLsb' 8 8 == 0)
    || (high == c.verbRd.high && payload == c.probe)
    || high == c.verbWr.high

/-- VERB.L is "any other verb": its verb id has bits [7:0] zero (R52, R71) and its word is not one of the three named
rows (R58). Every other instruction is well formed for all operands (R59, U1). -/
def Instr.wellFormed (c : Params) : Instr → Bool
  | .verbS _ _ _ => true
  | .verbL _ verb payload => verb.low == 0 && !c.namedVerb verb.high payload
  | .coefSelect _ _ => true
  | .coefRead _ => true
  | .coefWrite _ _ => true
  | .encode _ _ _ _ => true
  | .decode _ _ => true
  | .update _ _ _ _ => true

end Sys2Proof
end

