-- ==== Sys2Proof/Decode.lean ====
section
/-! DEFINITION. The codec's two functions (40_verb_codec.md R70, R73), the table's decoder and its encoder. -/

namespace Sys2Proof

/-- The default parameters of R5, which the test vectors and the opcode table use; the far end is the normative one
(DESIGN CHOICE, log 4). -/
def Params.defaults : Params :=
  { nodeLsb := 20, verbSel := 0x500#12, verbRd := 0xC00#12, verbWr := 0x400#12, probe := 0#16, coefNode := 0x20#7
    farEnd := .device }

/-- R70, `Enc(node, verb, payload, wide)`: each operand is truncated to its field and placed there; every other bit is
zero. -/
def enc (c : Params) (node verb payload : BitVec 32) (wide : Bool) : Word :=
  let n : Word := (node.setWidth 7).setWidth 32 <<< c.nodeLsb
  if wide then
    n ||| ((verb.extractLsb' 8 4).setWidth 32 <<< 16) ||| (payload.setWidth 16).setWidth 32
  else
    n ||| ((verb.setWidth 12).setWidth 32 <<< 8) ||| (payload.setWidth 8).setWidth 32

/-- R73, `Dec(word, wide)`: the slices of the selected form; in form L the verb id's low eight bits are zero. -/
def dec (c : Params) (word : Word) (wide : Bool) : Fields :=
  if wide then
    { node := word.extractLsb' c.nodeLsb 7, verb := word.extractLsb' 16 4 ++ 0#8, payload := word.extractLsb' 0 16 }
  else
    { node := word.extractLsb' c.nodeLsb 7, verb := word.extractLsb' 8 12
      payload := (word.extractLsb' 0 8).setWidth 16 }

/-- The bits of the word that no field covers: five in every layout (R54, R75's ZERO_MASK). -/
def Params.zeroMask (c : Params) : Word :=
  ~~~((0x7F#32 <<< c.nodeLsb) ||| 0x000FFFFF#32)

/-- The word of `SEL node, index`: form L, payload `zext_16(index)` (R90). -/
def selectWord (c : Params) (node : NodeId) (index : Index) : Word :=
  enc c (node.setWidth 32) (c.verbSel.setWidth 32) (index.setWidth 32) true

/-- The word of `RD node`: form L, payload PROBE (R91). -/
def readWord (c : Params) (node : NodeId) : Word :=
  enc c (node.setWidth 32) (c.verbRd.setWidth 32) (c.probe.setWidth 32) true

/-- The word of `WR node, data`: form L, payload the data (R92). -/
def writeWord (c : Params) (node : NodeId) (data : Coef) : Word :=
  enc c (node.setWidth 32) (c.verbWr.setWidth 32) (data.setWidth 32) true

/-- The word of `VERB.S node, verb, payload` (R60). -/
def shortWord (c : Params) (node : NodeId) (verb : VerbId) (payload : BitVec 8) : Word :=
  enc c (node.setWidth 32) (verb.setWidth 32) (payload.setWidth 32) false

/-- The word of `VERB.L node, verb, payload` (R60). -/
def longWord (c : Params) (node : NodeId) (verb : VerbId) (payload : BitVec 16) : Word :=
  enc c (node.setWidth 32) (verb.setWidth 32) (payload.setWidth 32) true

/-- The instruction a form L word is: a named row where its transmitted fields match one (R58), else VERB.L. -/
def decodeLong (c : Params) (f : Fields) : Instr :=
  if f.verb.high = c.verbSel.high ∧ f.payload.extractLsb' 8 8 = 0 then .coefSelect f.node (f.payload.setWidth 8)
  else if f.verb.high = c.verbRd.high ∧ f.payload = c.probe then .coefRead f.node
  else if f.verb.high = c.verbWr.high then .coefWrite f.node f.payload
  else .verbL f.node f.verb f.payload

/-- The table's decoder on a word with its side-band form bit. Total; a word with an uncovered bit set matches no row
and is rejected by name (R54, R58, log 12). -/
def decode (c : Params) (v : VerbWord) : Except DecodeError Instr :=
  if v.word &&& c.zeroMask ≠ 0 then .error .uncoveredBits
  else if v.wide then .ok (decodeLong c (dec c v.word true))
  else
    let f := dec c v.word false
    .ok (.verbS f.node f.verb (f.payload.setWidth 8))

/-- The table's encoder: the word and form of a verb. A port operation has no bit encoding (R58). -/
def encode (c : Params) : Instr → Option VerbWord
  | .verbS node verb payload => some ⟨shortWord c node verb payload, false⟩
  | .verbL node verb payload => some ⟨longWord c node verb payload, true⟩
  | .coefSelect node index => some ⟨selectWord c node index, true⟩
  | .coefRead node => some ⟨readWord c node, true⟩
  | .coefWrite node data => some ⟨writeWord c node data, true⟩
  | .encode _ _ _ _ => none
  | .decode _ _ => none
  | .update _ _ _ _ => none

/-- The form a word is read in where no side-band bit came with it: form L for the word of a named row (R58) and for a
word whose bits [15:8] are not zero, else form S; when they are zero both forms read alike (R76). DESIGN CHOICE, log
12. -/
def assumedForm (c : Params) (word : Word) : Bool :=
  let f := dec c word true
  c.namedVerb f.verb.high f.payload || word.extractLsb' 8 8 != 0

/-- The decoder on an instruction of `nbits` bits numbered as the opcode table numbers them: it must be exactly one
32-bit word (R50). -/
def decodeBits (c : Params) (nbits w : Nat) : Except DecodeError Instr :=
  if nbits = 32 ∧ w < 2 ^ 32 then
    decode c ⟨BitVec.ofNat 32 w, assumedForm c (BitVec.ofNat 32 w)⟩
  else .error .notOneWord

/-- What the decoder reads from the bits of an opcode-table row, at the default parameters; `none` where it refuses. -/
def decodeTableWord (nbits w : Nat) : Option Instr :=
  (decodeBits Params.defaults nbits w).toOption

end Sys2Proof
end

