-- ==== Sys2Proof/Machine/State.lean ====
section
/-! DEFINITION. The state of the block, of the responder and of the caller as plain data (10_state.md), the reasons a
step can stop, and the state after reset (R21). -/

namespace Sys2Proof.Machine

/-- The answer of one exchange (R4): `Resp(r)` or `ChannelError`. -/
inductive Answer where
  | resp (r : Word)
  | channelError
  deriving DecidableEq, Repr

/-- One entry of the history: a command word and its answer (R38). -/
structure Exchange where
  command : Word
  answer : Answer
  deriving DecidableEq, Repr

/-- The channel the block sends on (R3, R166). -/
inductive Channel where
  /-- `open()` has not returned a handle yet, or `close` has happened (R166). -/
  | closed
  /-- Every exchange is answered by the far end (R4). -/
  | opened
  /-- The channel never answers (U17), which the fairness assumption D24 excludes. -/
  | hung
  deriving DecidableEq, Repr

/-- The seven named values of the step register STEP (R13). -/
inductive SeqStep where
  | idle | sel1 | rd1 | sel2 | wr | sel3 | rd2
  deriving DecidableEq, Repr

/-- How the last UPDATE ended: the four codes of STATUS (R14, R140). -/
inductive Status where
  | ok | channelError | writeRejected | readInvalid
  deriving DecidableEq, Repr

/-- The three failures an UPDATE can raise (R140, R143). -/
inductive Failure where
  | channelError | writeRejected | readInvalid
  deriving DecidableEq, Repr

/-- The operand input ports of R16, as the caller last drove them. -/
structure Ports where
  encNode : BitVec 32
  encVerb : BitVec 32
  encPayload : BitVec 32
  encWide : Bool
  decWord : Word
  decWide : Bool
  updNode : BitVec 32
  updIndex : BitVec 32
  updMask : BitVec 32
  updValue : BitVec 32
  deriving DecidableEq, Repr

/-- The coefficient space: (index, coefficient) pairs in canonical form, indices strictly rising and no entry equal to
what an unlisted index reads as. The cell is one whole coefficient, since the spec has no byte address (R30, log 3). -/
abbrev Memory := List (Nat × Coef)

/-- The state of the responder the block depends on (R17, R18). -/
structure Responder where
  /-- CIDX, the coefficient index pointer (R17). -/
  cidx : Index
  /-- COEF[0..255] (R18). -/
  coef : Memory
  deriving DecidableEq, Repr

/-- What the caller, or the environment it stands for, can do in one step (R2). -/
inductive Action where
  /-- Present an operation of the table. -/
  | op (i : Instr)
  /-- Send a raw command word on the channel, with the side-band form bit it was built with (R55). -/
  | word (v : VerbWord)
  /-- The reset event (R160). -/
  | reset
  /-- The channel is opened, closed, or stops answering (R166, U17). -/
  | channel (c : Channel)
  /-- Leave this step to the sequencer: with it the caller acts after any exchange of a running UPDATE (R2, R78,
  log 9). -/
  | pass
  deriving DecidableEq, Repr

/-- One entry of what the caller will do. With `hold` the caller waits for BUSY = 0 first, as R173 asks of it; without,
it acts at once (R78, R111). -/
structure Request where
  action : Action
  hold : Bool
  deriving DecidableEq, Repr

/-- Why the machine stops with a fault. -/
inductive Fault where
  /-- Raised by every exchange on a channel that never answers (R4, U17): the sequencer stays in its step for ever.
  Safe: D24 assumes it away, and here a claim names it as a premise instead. -/
  | channelNeverAnswers
  deriving DecidableEq, Repr

/-- Why the model gives no meaning. -/
inductive Refusal where
  /-- Raised by an arm of `exec` whose instruction has no meaning yet. Safe: the machine stops. -/
  | notModelled (mnemonic : String)
  /-- Raised by the reset event while STEP is not IDLE, which R162 tells a model to refuse. Safe. -/
  | resetWhileBusy
  deriving DecidableEq, Repr

/-- The whole state. -/
structure State where
  /-- The parameters of R5, fixed when the model is instantiated; no step changes them (R167, log 1). -/
  cfg : Params
  /-- The channel as the block finds it (R3, R166). -/
  channel : Channel
  /-- The operand input ports (R16). -/
  ports : Ports
  /-- NODE, operand latch (R11). -/
  node : NodeId
  /-- IDX, operand latch (R11). -/
  idx : Index
  /-- MASK, operand latch (R11). -/
  mask : Coef
  /-- VAL, operand latch (R11). -/
  val : Coef
  /-- CUR, working register (R12). -/
  cur : Coef
  /-- NEW, working register (R12). -/
  new : Coef
  /-- STEP, the step register (R13). -/
  stepReg : SeqStep
  /-- DONE (R14). -/
  done : Bool
  /-- STATUS (R14). -/
  status : Status
  /-- RESULT (R14). -/
  result : Coef
  /-- CIDX and COEF (R17, R18). -/
  responder : Responder
  /-- The answers a test puts in place of the reference responder's, the next exchange's first; `none` leaves the
  answer as it is (R102). -/
  replaced : List (Option Answer)
  /-- Every exchange so far, the newest first (R38). -/
  history : List Exchange
  /-- What the caller will do, the next first (R2, log 9). -/
  requests : List Request
  /-- The draw counter that makes each free value a fresh one (log 20). -/
  draws : Nat
  deriving DecidableEq, Repr

/-- The input ports before the caller has driven them (DESIGN CHOICE, log 2). -/
def Ports.zero : Ports :=
  { encNode := 0, encVerb := 0, encPayload := 0, encWide := false, decWord := 0, decWide := false
    updNode := 0, updIndex := 0, updMask := 0, updValue := 0 }

/-- After reset: STEP = IDLE, DONE = 0, no exchange requested (R21, R160). What R21 leaves unspecified holds zero
(DESIGN CHOICE, log 2, log 3); the channel is not open yet (R167, log 10). -/
def State.reset : State :=
  { cfg := Params.defaults, channel := .closed, ports := Ports.zero
    node := 0, idx := 0, mask := 0, val := 0, cur := 0, new := 0
    stepReg := .idle, done := false, status := .ok, result := 0
    responder := { cidx := 0, coef := [] }, replaced := [], history := [], requests := [], draws := 0 }

end Sys2Proof.Machine
end

