-- ==== Sys2Proof/Machine/Operands.lean ====
section
/-! DEFINITION. Operand assembly and the arithmetic of UPDATE (30_encoding.md R56, 42_coef_update.md R111, R117). -/

namespace Sys2Proof.Machine

/-- `trunc_7(node_in)` (R11, R111). -/
def truncNode (v : BitVec 32) : NodeId := v.setWidth 7

/-- `trunc_8(index_in)` (R11, R111). -/
def truncIndex (v : BitVec 32) : Index := v.setWidth 8

/-- `trunc_16(mask_in)`, `trunc_16(value_in)` (R11, R111). -/
def truncCoef (v : BitVec 32) : Coef := v.setWidth 16

/-- R117: `NEW <- (CUR & ~MASK) | (VAL & MASK)`, all at 16 bits. -/
def merge (cur mask val : Coef) : Coef := (cur &&& ~~~mask) ||| (val &&& mask)

/-- The coefficient a read response carries, `r[15:0]`; `r[31:16]` is ignored (R57, R116). -/
def coefOf (r : Word) : Coef := r.extractLsb' 0 16

/-- What a responder makes of a command word: the verbs it recognises by node id and `verb[11:8]` of the form L
reading (R95), and the cases R100 and R101 tell apart. -/
inductive Recognised where
  | select (index : Index)
  | read
  | write (data : Coef)
  /-- A select or a write for another node (R100). -/
  | strayAck
  /-- A read for another node (R100). -/
  | strayRead
  /-- No coefficient verb (R101). -/
  | other
  deriving DecidableEq, Repr

/-- R95 to R101: the first matching rule on `(node, verb, payload) = Dec(w, 1)`. A select takes `payload[7:0]`
(R97, D29). -/
def recognise (c : Params) (w : Word) : Recognised :=
  let f := dec c w true
  if f.node = c.coefNode then
    if f.verb.high = c.verbSel.high then .select (f.payload.extractLsb' 0 8)
    else if f.verb.high = c.verbRd.high then .read
    else if f.verb.high = c.verbWr.high then .write f.payload
    else .other
  else
    if f.verb.high = c.verbSel.high ∨ f.verb.high = c.verbWr.high then .strayAck
    else if f.verb.high = c.verbRd.high then .strayRead
    else .other

end Sys2Proof.Machine
end

