-- ==== Sys2Proof/Machine/Flags.lean ====
section
/-! DEFINITION. The sentinels (30_encoding.md R57), the status flags (10_state.md R14, 60_exceptions.md R140) and the
output ports (R16). -/

namespace Sys2Proof.Machine

/-- RESP_OK, the success response of a select and of a write (R5, R57, D7). -/
def respOk : Word := 0x00000000#32

/-- RESP_INVALID, the not-ready or invalid response, all ones (R5, R57). -/
def respInvalid : Word := 0xFFFFFFFF#32

/-- The 2-bit code of a status (R14, R140). -/
def Status.code : Status → BitVec 2
  | .ok => 0
  | .channelError => 1
  | .writeRejected => 2
  | .readInvalid => 3

/-- The status of a 2-bit code: every code names one (R14). -/
def Status.ofCode (c : BitVec 2) : Status :=
  if c = 0 then .ok else if c = 1 then .channelError else if c = 2 then .writeRejected else .readInvalid

/-- The status a failure leaves (R140, R143). -/
def Failure.status : Failure → Status
  | .channelError => .channelError
  | .writeRejected => .writeRejected
  | .readInvalid => .readInvalid

/-- `BUSY = (STEP != IDLE)` (R14); the port upd_busy. -/
def State.busy (s : State) : Bool := s.stepReg != .idle

/-- The port upd_status (R16). -/
def State.updStatus (s : State) : BitVec 2 := s.status.code

/-- The document's `new_register_value`: RESULT, which is valid when an UPDATE has ended with ST_OK and not otherwise
(R14, R126). -/
def State.updResult (s : State) : Option Coef :=
  if s.done ∧ s.status = .ok then some s.result else none

/-- The port enc_word: the verb word of the operands now on the ports (R10, R70). -/
def State.encWord (s : State) : Word :=
  enc s.cfg s.ports.encNode s.ports.encVerb s.ports.encPayload s.ports.encWide

/-- The ports dec_node, dec_verb, dec_payload: the fields of the word now on the ports (R10, R73). -/
def State.decFields (s : State) : Fields := dec s.cfg s.ports.decWord s.ports.decWide

/-- The port ch_cmd, with ch_cmd_valid as `some`: the command word of the step the sequencer is in (R13, R16, R113,
R114, R119, R120, R122, R123). -/
def State.chCmd (s : State) : Option Word :=
  match s.stepReg with
  | .idle => none
  | .sel1 => some (selectWord s.cfg s.node s.idx)
  | .rd1 => some (readWord s.cfg s.node)
  | .sel2 => some (selectWord s.cfg s.node s.idx)
  | .wr => some (writeWord s.cfg s.node s.new)
  | .sel3 => some (selectWord s.cfg s.node s.idx)
  | .rd2 => some (readWord s.cfg s.node)

/-- The ports ch_resp, ch_resp_valid, ch_err as they stood when the last answer arrived (R16, R77). -/
def State.lastAnswer (s : State) : Option Answer := s.history.head?.map Exchange.answer

end Sys2Proof.Machine
end

