-- ==== Sys2Proof/Machine/Ops.lean ====
section
/-! DEFINITION. The shared operations: the coefficient space, the state's updates, the far ends and `Exchange`
(00_scope.md R4, 41_coef_verbs.md R93 to R102), raising a failure (60_exceptions.md R143), the reset event
(70_reset_and_hazards.md R160 to R162). -/

namespace Sys2Proof.Machine

/-! ### The coefficient space (R18, R30) -/

/-- What an unlisted coefficient reads as (DESIGN CHOICE, log 3). -/
def unlistedCoef : Coef := 0

/-- COEF[i]. -/
def Memory.read : Memory → Nat → Coef
  | [], _ => unlistedCoef
  | (a, v) :: m, i => if a = i then v else Memory.read m i

/-- `COEF[i] <- v`, keeping the canonical form. -/
def Memory.write : Memory → Nat → Coef → Memory
  | [], i, v => if v = unlistedCoef then [] else [(i, v)]
  | (a, u) :: m, i, v =>
    if i < a then (if v = unlistedCoef then (a, u) :: m else (i, v) :: (a, u) :: m)
    else if i = a then (if v = unlistedCoef then m else (i, v) :: m)
    else (a, u) :: Memory.write m i v

/-- The coefficient space whose register `i` holds `f i`, for the 256 indices (R5's COEF_N, R30). -/
def Memory.ofFn (f : Nat → Coef) : Memory :=
  ((List.range 256).map (fun i => (i, f i))).filter (fun c => c.2 ≠ unlistedCoef)

/-- The canonical form: indices below 256, strictly rising, no entry equal to what an unlisted index reads as. -/
def Memory.wf : Memory → Bool
  | [] => true
  | (a, v) :: m => decide (a < 256) && decide (v ≠ unlistedCoef) && m.all (fun c => decide (a < c.1)) && Memory.wf m

/-! ### Updates of the state -/

/-- `STEP <- st`. -/
def State.moveTo (st : SeqStep) (s : State) : State := { s with stepReg := st }

/-- What the start of an UPDATE leaves in STATUS: R14 holds it until the next start, which overwrites it (R173), and no
rule says with what. A free value (DESIGN CHOICE, log 8). -/
def startedStatus (s : State) : Status := Status.ofCode ((Config.drawRegister s.draws 7).setWidth 2)

/-- What the start of an UPDATE leaves in RESULT, a free value as STATUS is (R14, R173; DESIGN CHOICE, log 8). -/
def startedResult (s : State) : Coef := Config.drawRegister s.draws 6

/-- The start of an UPDATE (R111): the four latches, `DONE <- 0`, `STEP <- SEL1`; STATUS and RESULT are overwritten
(R173). -/
def State.latch (n : NodeId) (i : Index) (m v : Coef) (s : State) : State :=
  { s with
    node := n, idx := i, mask := m, val := v, done := false, stepReg := .sel1
    status := startedStatus s, result := startedResult s, draws := s.draws + 1 }

/-- CUR and NEW, written at the same moment (R12). -/
def State.setWork (cur new : Coef) (s : State) : State := { s with cur := cur, new := new }

/-- The end of an UPDATE: RESULT, STATUS, `DONE <- 1`, `STEP <- IDLE` (R14). -/
def State.finish (st : Status) (r : Coef) (s : State) : State :=
  { s with result := r, status := st, done := true, stepReg := .idle }

/-- The responder's state after an exchange (R17, R18). -/
def State.setResponder (r : Responder) (s : State) : State := { s with responder := r }

/-- The exchange that has just happened enters the history and uses up one draw (R38). -/
def State.record (w : Word) (a : Answer) (s : State) : State :=
  { s with history := ⟨w, a⟩ :: s.history, draws := s.draws + 1 }

/-- One entry of the fault injection is used up (R102). -/
def State.dropReplaced (s : State) : State := { s with replaced := s.replaced.tail }

/-- The draw counter moves on. -/
def State.nextDraw (s : State) : State := { s with draws := s.draws + 1 }

/-- The caller drives the operand input ports (R16). -/
def State.drive (p : Ports) (s : State) : State := { s with ports := p }

/-- The requests still to come. -/
def State.setRequests (rs : List Request) (s : State) : State := { s with requests := rs }

/-- The channel is opened, closed, or stops answering (R166, U17). -/
def State.setChannel (c : Channel) (s : State) : State := { s with channel := c }

/-- The effect of the reset event on the block (R21): STEP = IDLE, DONE = 0, every other register of the block
unspecified, here a free value (log 7). -/
def State.clearBlock (s : State) : State :=
  { s with
    stepReg := .idle, done := false
    node := (Config.drawRegister s.draws 0).setWidth 7
    idx := (Config.drawRegister s.draws 1).setWidth 8
    mask := Config.drawRegister s.draws 2
    val := Config.drawRegister s.draws 3
    cur := Config.drawRegister s.draws 4
    new := Config.drawRegister s.draws 5
    result := Config.drawRegister s.draws 6
    status := Status.ofCode ((Config.drawRegister s.draws 7).setWidth 2)
    draws := s.draws + 1 }

/-! ### The reference responder (R96 to R102) -/

/-- R97 to R101: the response and the new state of the reference responder. -/
def referenceRespond (c : Params) (r : Responder) (w : Word) : Word × Responder :=
  match recognise c w with
  | .select i => (0x00000000#32, { r with cidx := i })
  | .read => ((r.coef.read r.cidx.toNat).setWidth 32, { r with cidx := r.cidx + 1 })
  | .write d => (0x00000000#32, { cidx := r.cidx + 1, coef := r.coef.write r.cidx.toNat d })
  | .strayAck => (0x00000001#32, r)
  | .strayRead => (0x00000000#32, r)
  | .other => (0x00000000#32, r)

/-- R102: the state change of an exchange whose answer a test replaced. None for `ChannelError` and for a replaced
select or write answer; a replaced read answer still advances the pointer. -/
def replacedRespond (c : Params) (r : Responder) (w : Word) : Answer → Responder
  | .channelError => r
  | .resp _ =>
    match recognise c w with
    | .read => (referenceRespond c r w).2
    | _ => r

/-- One exchange with the reference responder, under the fault injection of R102. -/
def referenceExchange (s : State) (w : Word) : Answer × State :=
  match s.replaced.head?.join with
  | some a => (a, (s.setResponder (replacedRespond s.cfg s.responder w a)).dropReplaced.record w a)
  | none =>
    let o := referenceRespond s.cfg s.responder w
    (.resp o.1, (s.setResponder o.2).dropReplaced.record w (.resp o.1))

/-! ### A device (R93, R94): everything the spec does not fix is a free value (log 5) -/

/-- The draw of R4: any 32-bit response, or `ChannelError`. -/
def drawAnswer (t : Nat) (w : Word) : Answer :=
  if Config.drawError t w then .channelError else .resp (Config.drawResponse t w)

/-- A device's answer to a read that is no sentinel carries the coefficient at the pointer in `r[15:0]` (R91, R93);
`r[31:16]` is free (U8). -/
def readAnswer (value : Coef) : Answer → Answer
  | .channelError => .channelError
  | .resp r => if r = respInvalid then .resp r else .resp (r.extractLsb' 16 16 ++ value)

/-- A device's coefficients at an exchange: they may change at any time (R18, R42, U9 to U11). -/
def deviceCoef (t : Nat) (w : Word) : Memory := Memory.ofFn (Config.drawCoef t w)

/-- A device's pointer after a read that was answered: the next index (R93); what follows `0xFF` is open (U14). -/
def deviceNext (t : Nat) (w : Word) (i : Index) : Index :=
  if i = 0xFF#8 then Config.drawPointer t w else i + 1

/-- Which verb a far end other than the reference responder is bound by: the words of COEF_SELECT, COEF_READ and
COEF_WRITE for any node, bit for bit as R90, R91 and R92 give them. Any other word that R95 recognises binds it to nothing:
a select with `payload[15:8]` not zero (D29 settles it for the reference responder only), a read whose payload is not PROBE
(91_not_in_source.md N4), and a word with an uncovered bit set (N16). DESIGN CHOICE, log 5, log 10. -/
def recogniseExact (c : Params) (w : Word) : Recognised :=
  let f := dec c w true
  if w = selectWord c f.node (f.payload.setWidth 8) ∨ w = readWord c f.node ∨ w = writeWord c f.node f.payload then
    recognise c w
  else .other

/-- A device's answer and new state. An accepted select sets the pointer and an answered read advances it (R93); the
pointer is free after anything else (U13, U14, U23). -/
def deviceRespond (c : Params) (p : Responder) (t : Nat) (w : Word) : Answer × Responder :=
  match recogniseExact c w, drawAnswer t w with
  | .select i, a =>
    (a, { cidx := if a = .resp respOk then i else Config.drawPointer t w, coef := deviceCoef t w })
  | .read, .resp r =>
    (readAnswer ((deviceCoef t w).read p.cidx.toNat) (.resp r), { cidx := deviceNext t w p.cidx, coef := deviceCoef t w })
  | _, a => (a, { cidx := Config.drawPointer t w, coef := deviceCoef t w })

/-- One exchange with a device. -/
def deviceExchange (s : State) (w : Word) : Answer × State :=
  let o := deviceRespond s.cfg s.responder s.draws w
  (o.1, (s.setResponder o.2).record w o.1)

/-! ### A channel that is not open (R166) -/

/-- A channel that is not open answers `ChannelError`, or rejects a select or a write, as R90 and R92 give their words,
with a value other than RESP_OK; of any other word's answer nothing is known (R148, R166, log 10). -/
def closedAnswer (c : Params) (t : Nat) (w : Word) : Answer :=
  match recogniseExact c w, drawAnswer t w with
  | .read, a => a
  | .strayRead, a => a
  | .other, a => a
  | _, a => if a = .resp respOk then .channelError else a

/-- One exchange on a channel that is not open: the command does not reach the far end, whose coefficients may still
change by themselves if it is a device (R18). -/
def closedExchange (s : State) (w : Word) : Answer × State :=
  let a := closedAnswer s.cfg s.draws w
  match s.cfg.farEnd with
  | .reference => (a, s.record w a)
  | .device => (a, (s.setResponder { s.responder with coef := deviceCoef s.draws w }).record w a)

/-! ### Exchange (R4) -/

/-- R4, `Exchange(w)`: the answer, and the state once it has arrived. `none`: the channel never answers (U17). -/
def exchange (s : State) (w : Word) : Option (Answer × State) :=
  match s.channel with
  | .hung => none
  | .closed => some (closedExchange s w)
  | .opened =>
    match s.cfg.farEnd with
    | .reference => some (referenceExchange s w)
    | .device => some (deviceExchange s w)

/-- The caller sends a verb of its own: one exchange, whose answer the caller finds in the history as the 32-bit value
received (00_scope.md section 8, R77). -/
def sendVerb (w : Word) (s : State) : Host.Outcome State Fault Refusal :=
  match exchange s w with
  | none => .fault .channelNeverAnswers
  | some (_, s') => .next s'

/-! ### Raising a failure, and reset -/

/-- R143, `raise F(step)`: STATUS <- the code of F, DONE <- 1, STEP <- IDLE. RESULT becomes unspecified, a free value
(R126, log 6); nothing else changes. There is no return from it (R146). -/
def raiseFailure (f : Failure) (s : State) : State :=
  (s.finish f.status (Config.drawRegister s.draws 6)).nextDraw

/-- The reset event (R160): it does not reach the responder (R161) and is refused while an UPDATE runs (R162). -/
def resetEvent (s : State) : Host.Outcome State Fault Refusal :=
  if s.busy then .refused .resetWhileBusy else .next s.clearBlock

end Sys2Proof.Machine
end

