-- ==== Sys2Proof/Machine/Codec.lean ====
section
/-! DEFINITION. ENCODE and DECODE (40_verb_codec.md R70, R73). The codec has no state (R10): presenting an operation
drives its input ports, and the output ports `State.encWord` and `State.decFields` are functions of them. -/

namespace Sys2Proof.Machine

/-- ENCODE (R70): enc_word is the verb word of the four operands. No flag, no failure. -/
def execEncode (node verb payload : BitVec 32) (wide : Bool) (s : State) : Host.Outcome State Fault Refusal :=
  .next (s.drive { s.ports with encNode := node, encVerb := verb, encPayload := payload, encWide := wide })

/-- DECODE (R73): dec_node, dec_verb and dec_payload are the fields of the word in the form selected. No flag, no
failure. -/
def execDecode (word : Word) (wide : Bool) (s : State) : Host.Outcome State Fault Refusal :=
  .next (s.drive { s.ports with decWord := word, decWide := wide })

end Sys2Proof.Machine
end

