-- ==== Sys2Proof/Machine/Update.lean ====
section
/-! DEFINITION. UPDATE: its start (42_coef_update.md R111) and the steps of the sequencer (R112 to R124), one exchange
each (00_scope.md R2). -/

namespace Sys2Proof.Machine

/-- R111: the operands are driven on the ports and upd_start is asserted. While STEP = IDLE the UPDATE starts: the
operands are truncated into the latches, DONE <- 0, STEP <- SEL1, and STATUS and RESULT are overwritten (R173). While an
UPDATE runs the request is ignored and not queued. The steps that follow perform the exchanges (log 13). -/
def execUpdate (node index mask value : BitVec 32) (s : State) : Host.Outcome State Fault Refusal :=
  let s := s.drive { s.ports with updNode := node, updIndex := index, updMask := mask, updValue := value }
  if s.busy then .next s
  else .next (s.latch (truncNode node) (truncIndex index) (truncCoef mask) (truncCoef value))

/-- The answer of a select or a write: RESP_OK leads to the next step, any other value is a rejection (R113, R119,
R121, R122). -/
def acknowledge (r : Word) (next : SeqStep) (s : State) : State :=
  if r = respOk then s.moveTo next else raiseFailure .writeRejected s

/-- The answer of the first read (R115 to R118): invalid, or CUR and NEW are written, and the write is skipped when
they are equal. -/
def firstRead (r : Word) (s : State) : State :=
  if r = respInvalid then raiseFailure .readInvalid s
  else
    let s := s.setWork (coefOf r) (merge (coefOf r) s.mask s.val)
    if s.new = s.cur then s.finish .ok s.cur else s.moveTo .sel2

/-- The answer of the second read (R115, R124): invalid, or RESULT is the read-back, not compared with NEW (D28). -/
def readBack (r : Word) (s : State) : State :=
  if r = respInvalid then raiseFailure .readInvalid s else s.finish .ok (coefOf r)

/-- What the sequencer does with the answer of its exchange: the channel error is tested first (R112, R145). -/
def examine (a : Answer) (s : State) : State :=
  match a with
  | .channelError => raiseFailure .channelError s
  | .resp r =>
    match s.stepReg with
    | .idle => s
    | .sel1 => acknowledge r .rd1 s
    | .rd1 => firstRead r s
    | .sel2 => acknowledge r .wr s
    | .wr => acknowledge r .sel3 s
    | .sel3 => acknowledge r .rd2 s
    | .rd2 => readBack r s

/-- One step of the sequencer: in IDLE nothing, in every other step exactly one exchange, whose answer it examines
(R2, R112). -/
def sequencerStep (s : State) : Host.Outcome State Fault Refusal :=
  match s.chCmd with
  | none => .next s
  | some w =>
    match exchange s w with
    | none => .fault .channelNeverAnswers
    | some (a, s') => .next (examine a s')

end Sys2Proof.Machine
end

