-- ==== Sys2Proof/Machine/Verbs.lean ====
section
/-! DEFINITION. The verbs as the caller sends them: one exchange each of the word of the table's row
(41_coef_verbs.md R90 to R92, 30_encoding.md R58, R60). -/

namespace Sys2Proof.Machine

/-- VERB.S: the word `Enc(node, verb, payload, 0)`, exchanged once (R60, R70). -/
def execVerbS (node : NodeId) (verb : VerbId) (payload : BitVec 8) (s : State) : Host.Outcome State Fault Refusal :=
  sendVerb (shortWord s.cfg node verb payload) s

/-- VERB.L: the word `Enc(node, verb, payload, 1)`, exchanged once (R60, R70). -/
def execVerbL (node : NodeId) (verb : VerbId) (payload : BitVec 16) (s : State) : Host.Outcome State Fault Refusal :=
  sendVerb (longWord s.cfg node verb payload) s

/-- COEF_SELECT (R90): the responder's index pointer is set to the index. -/
def execCoefSelect (node : NodeId) (index : Index) (s : State) : Host.Outcome State Fault Refusal :=
  sendVerb (selectWord s.cfg node index) s

/-- COEF_READ (R91): the responder returns the coefficient at its pointer, which advances by one. -/
def execCoefRead (node : NodeId) (s : State) : Host.Outcome State Fault Refusal :=
  sendVerb (readWord s.cfg node) s

/-- COEF_WRITE (R92): the responder writes the data to the coefficient at its pointer. -/
def execCoefWrite (node : NodeId) (data : Coef) (s : State) : Host.Outcome State Fault Refusal :=
  sendVerb (writeWord s.cfg node data) s

end Sys2Proof.Machine
end

