-- ==== Sys2Proof/Machine/Dispatch.lean ====
section
/-! DEFINITION. The meaning of every instruction of the opcode table, one arm each. -/

namespace Sys2Proof.Machine

def exec (i : Instr) (s : State) : Host.Outcome State Fault Refusal :=
  match i with
  | .verbS node verb payload => Sys2Proof.Machine.execVerbS node verb payload s
  | .verbL node verb payload => Sys2Proof.Machine.execVerbL node verb payload s
  | .coefSelect node index => Sys2Proof.Machine.execCoefSelect node index s
  | .coefRead node => Sys2Proof.Machine.execCoefRead node s
  | .coefWrite node data => Sys2Proof.Machine.execCoefWrite node data s
  | .encode node verb payload wide => Sys2Proof.Machine.execEncode node verb payload wide s
  | .decode word wide => Sys2Proof.Machine.execDecode word wide s
  | .update node index mask value => Sys2Proof.Machine.execUpdate node index mask value s

end Sys2Proof.Machine
end

