-- ==== Sys2Proof/Machine/Step.lean ====
section
/-! DEFINITION. One step of the machine: the caller acts, or the sequencer performs one exchange (00_scope.md R2). -/

namespace Sys2Proof.Machine

/-- What one action of the caller does. A raw word that decodes is its instruction; a word with an uncovered bit set is
still one exchange, since the channel carries any 32 bits (R4, log 12). -/
def present (a : Action) (s : State) : Host.Outcome State Fault Refusal :=
  match a with
  | .op i => exec i s
  | .word v =>
    match decode s.cfg v with
    | .ok i => exec i s
    | .error _ => sendVerb v.word s
  | .reset => resetEvent s
  | .channel c => .next (s.setChannel c)
  | .pass => sequencerStep s

/-- One step. The caller's next request is presented, unless it waits for BUSY = 0 (R173) while an UPDATE runs; then,
or when there is no request, the sequencer takes its step. With neither, the block is idle (R151). -/
def step (s : State) : Host.Outcome State Fault Refusal :=
  match s.requests with
  | [] => sequencerStep s
  | r :: rest => if r.hold ∧ s.busy then sequencerStep s else present r.action (s.setRequests rest)

/-- The state in which the very next step runs the verb whose word is the low `nbits` bits of `w`: it becomes the
caller's next request, presented at once, in the form `decodeTableWord` reads it, and the channel that carries it is
open (R166, R167, log 9). -/
def State.withFetchWord (s : State) (nbits w : Nat) : State :=
  let word := BitVec.ofNat 32 (w % 2 ^ nbits)
  (s.setChannel .opened).setRequests (⟨.word ⟨word, assumedForm s.cfg word⟩, false⟩ :: s.requests)

end Sys2Proof.Machine
end

