-- ==== Sys2Proof/Machine/WholeUpdate.lean ====
section
/-! DEFINITION. The whole of one UPDATE as 42_coef_update.md R125 writes it, in one block. `step` does not use it: it is
what claims compare the steps of the sequencer with. -/

namespace Sys2Proof.Machine

/-- `X(w)` of R125: exchange `w`, raise ChannelError where that is the answer, else go on with the response value. -/
def exchangeThen (w : Word) (go : Word → State → Host.Outcome State Fault Refusal) (s : State) :
    Host.Outcome State Fault Refusal :=
  match exchange s w with
  | none => .fault .channelNeverAnswers
  | some (.channelError, s) => .next (raiseFailure .channelError s)
  | some (.resp r, s) => go r s

/-- R125, line by line. `latched` is the state after its first two lines, the operands in their latches and DONE, STATUS
and RESULT as the start leaves them (R111, R173); `sel` and
`rd` are the two words formed once. -/
def wholeUpdate (latched : State) : Host.Outcome State Fault Refusal :=
  let c := latched.cfg
  let sel := enc c (latched.node.setWidth 32) (c.verbSel.setWidth 32) (latched.idx.setWidth 32) true
  let rd := enc c (latched.node.setWidth 32) (c.verbRd.setWidth 32) (c.probe.setWidth 32) true
  exchangeThen sel (s := latched.moveTo .sel1) fun r s =>
  if r ≠ 0x00000000#32 then .next (raiseFailure .writeRejected s) else
  exchangeThen rd (s := s.moveTo .rd1) fun r s =>
  if r = 0xFFFFFFFF#32 then .next (raiseFailure .readInvalid s) else
  let cur := r.extractLsb' 0 16
  let new := (cur &&& ~~~latched.mask) ||| (latched.val &&& latched.mask)
  let s := s.setWork cur new
  if new = cur then .next (s.finish .ok cur) else
  exchangeThen sel (s := s.moveTo .sel2) fun r s =>
  if r ≠ 0x00000000#32 then .next (raiseFailure .writeRejected s) else
  exchangeThen (enc c (latched.node.setWidth 32) (c.verbWr.setWidth 32) (new.setWidth 32) true) (s := s.moveTo .wr) fun r s =>
  if r ≠ 0x00000000#32 then .next (raiseFailure .writeRejected s) else
  exchangeThen sel (s := s.moveTo .sel3) fun r s =>
  if r ≠ 0x00000000#32 then .next (raiseFailure .writeRejected s) else
  exchangeThen rd (s := s.moveTo .rd2) fun r s =>
  if r = 0xFFFFFFFF#32 then .next (raiseFailure .readInvalid s) else
  .next (s.finish .ok (r.extractLsb' 0 16))

end Sys2Proof.Machine
end

