-- ==== Sys2Proof/Safety.lean ====
section
/-! DEFINITION. The terms claims are stated in: what an exchange may change, the invariant of the state, the possible
histories of one UPDATE (42_coef_update.md R127). -/

namespace Sys2Proof.Machine

/-- What no exchange changes: the parameters, the channel, the ports, the requests, and every register of the
sequencer. -/
def SameBlock (s t : State) : Prop :=
  t.cfg = s.cfg ∧ t.channel = s.channel ∧ t.ports = s.ports ∧ t.requests = s.requests ∧
  t.node = s.node ∧ t.idx = s.idx ∧ t.mask = s.mask ∧ t.val = s.val ∧ t.cur = s.cur ∧ t.new = s.new ∧
  t.stepReg = s.stepReg ∧ t.done = s.done ∧ t.status = s.status ∧ t.result = s.result

/-- Every coefficient reads as before, but for those of the list. -/
def CoefsSameBut (l : List Nat) (s t : State) : Prop :=
  ∀ i, i ∉ l → t.responder.coef.read i = s.responder.coef.read i

/-- The reference responder is at the far end of an open channel, and no answer is replaced (R96). -/
def Referenced (s : State) : Prop := s.channel = .opened ∧ s.cfg.farEnd = .reference ∧ s.replaced = []

/-- A device is at the far end of an open channel (R93, R94). -/
def Deviced (s : State) : Prop := s.channel = .opened ∧ s.cfg.farEnd = .device

/-- The steps in which NEW is going to be written, or has been (R13). -/
def SeqStep.writing : SeqStep → Bool
  | .sel2 => true
  | .wr => true
  | .sel3 => true
  | .rd2 => true
  | _ => false

/-- The sequencer's registers agree: while the write is under way NEW is the merge of CUR and differs from it (R117,
R118), and DONE is 0 while an UPDATE runs (R14). -/
def SequencerInv (s : State) : Prop :=
  (s.stepReg.writing → s.new = merge s.cur s.mask s.val ∧ s.new ≠ s.cur) ∧ (s.stepReg ≠ .idle → s.done = false)

/-- The sequencer never accesses a coefficient but right after its own accepted select of IDX (R19, R169). -/
def SelectedInv (s : State) : Prop :=
  (s.stepReg = .rd1 ∨ s.stepReg = .wr ∨ s.stepReg = .rd2) →
    s.history.head? = some ⟨selectWord s.cfg s.node s.idx, .resp respOk⟩

/-- The invariant of the whole machine: the coefficient space is in canonical form (R30) and the sequencer's registers
agree. -/
def State.Inv (s : State) : Prop := Memory.wf s.responder.coef = true ∧ SequencerInv s

/-- `u` is `t` after raising a failure whose code is `st`: RESULT is whatever it may be, and nothing else has changed
(R143). -/
def Ended (t u : State) (st : Status) : Prop :=
  ∃ r, u = { t with status := st, done := true, stepReg := .idle, result := r, draws := t.draws + 1 }

/-- The caller's verb `i` is one exchange of the word `w`, which leaves the block as it was. -/
def SendsVerb (s : State) (i : Instr) (w : Word) : Prop :=
  ∃ a t, exec i s = .next t ∧ exchange s w = some (a, t) ∧ t.history = ⟨w, a⟩ :: s.history ∧ SameBlock s t

/-- The state after an exchange of `w` that was answered `r`, in which the far end's state is `p`. -/
def answered (s : State) (w : Word) (r : Word) (p : Responder) : State :=
  { s with responder := p, history := ⟨w, .resp r⟩ :: s.history, draws := s.draws + 1 }

/-- The state in which an UPDATE has just been latched (R111), its operands driven on the ports (R16). STATUS and RESULT
hold free values (R173, log 8). -/
def started (s : State) (node index mask value : BitVec 32) : State :=
  { s with
    ports := { s.ports with updNode := node, updIndex := index, updMask := mask, updValue := value }
    node := node.setWidth 7, idx := index.setWidth 8, mask := mask.setWidth 16, val := value.setWidth 16
    done := false, stepReg := .sel1
    status := startedStatus s, result := startedResult s, draws := s.draws + 1 }

/-- No UPDATE runs and the caller has nothing further to do. -/
def Quiet (s : State) : Prop := s.stepReg = .idle ∧ s.requests = []

/-- The answer of a select or a write that ends an UPDATE, with the status it leaves (R112, R113, R121). -/
def AckFails (a : Answer) (st : Status) : Prop :=
  (a = .channelError ∧ st = .channelError) ∨ (∃ r, a = .resp r ∧ r ≠ respOk ∧ st = .writeRejected)

/-- The answer of a read that ends an UPDATE as a failure, with the status it leaves (R112, R115). -/
def ReadFails (a : Answer) (st : Status) : Prop :=
  (a = .channelError ∧ st = .channelError) ∨ (a = .resp respInvalid ∧ st = .readInvalid)

/-- The table of R127. `s` is the state in which the UPDATE has just been latched, `u` its end, `e` the exchanges
between, the oldest first. -/
def UpdateHistory (s u : State) (e : List Exchange) : Prop :=
  let sel := selectWord s.cfg s.node s.idx
  let rd := readWord s.cfg s.node
  let merged := fun r : Word => merge (coefOf r) s.mask s.val
  let wr := fun r : Word => writeWord s.cfg s.node (merged r)
  let ok : Answer := .resp respOk
  (∃ a, e = [⟨sel, a⟩] ∧ AckFails a u.status) ∨
  (∃ a, e = [⟨sel, ok⟩, ⟨rd, a⟩] ∧ ReadFails a u.status) ∨
  (∃ r, e = [⟨sel, ok⟩, ⟨rd, .resp r⟩] ∧ r ≠ respInvalid ∧ merged r = coefOf r
    ∧ u.status = .ok ∧ u.result = coefOf r) ∨
  (∃ r, r ≠ respInvalid ∧ merged r ≠ coefOf r ∧
    ((∃ a, e = [⟨sel, ok⟩, ⟨rd, .resp r⟩, ⟨sel, a⟩] ∧ AckFails a u.status) ∨
     (∃ a, e = [⟨sel, ok⟩, ⟨rd, .resp r⟩, ⟨sel, ok⟩, ⟨wr r, a⟩] ∧ AckFails a u.status) ∨
     (∃ a, e = [⟨sel, ok⟩, ⟨rd, .resp r⟩, ⟨sel, ok⟩, ⟨wr r, ok⟩, ⟨sel, a⟩] ∧ AckFails a u.status) ∨
     (∃ a, e = [⟨sel, ok⟩, ⟨rd, .resp r⟩, ⟨sel, ok⟩, ⟨wr r, ok⟩, ⟨sel, ok⟩, ⟨rd, a⟩] ∧ ReadFails a u.status) ∨
     (∃ q, e = [⟨sel, ok⟩, ⟨rd, .resp r⟩, ⟨sel, ok⟩, ⟨wr r, ok⟩, ⟨sel, ok⟩, ⟨rd, .resp q⟩] ∧ q ≠ respInvalid
       ∧ u.status = .ok ∧ u.result = coefOf q)))

end Sys2Proof.Machine
end

