-- ==== Sys2Proof/Certificates/Slice0/Obligations.lean ====
section
/-! DEFINITION. The statements about this machine. Each docstring names the rules it formalises; OBLIGATIONS.json lists
them. "Derived" rules are the spec's own inferences, marked so where they stand. -/

open Sys2Proof Sys2Proof.Machine

/-! ### The codec (40_verb_codec.md) -/

/-- R70: ENCODE completes in every state, puts on enc_word the sum of its truncated fields at their positions, and
changes nothing but the enc input ports. -/
def Obligations.EncodePacksTruncatedFields : Prop :=
  ∀ (s : State) (n v p : BitVec 32) (wide : Bool), s.cfg.wellFormed = true →
    ∃ t, exec (.encode n v p wide) s = .next t ∧
      t = { s with ports := { s.ports with encNode := n, encVerb := v, encPayload := p, encWide := wide } } ∧
      t.encWord.toNat = (n.toNat % 2 ^ 7) * 2 ^ s.cfg.nodeLsb +
        (if wide then (v.toNat / 2 ^ 8 % 2 ^ 4) * 2 ^ 16 + p.toNat % 2 ^ 16
         else (v.toNat % 2 ^ 12) * 2 ^ 8 + p.toNat % 2 ^ 8)

/-- R73: DECODE completes in every state, puts on dec_node, dec_verb and dec_payload the slices of the form selected,
whatever the uncovered bits hold, and changes nothing but the dec input ports. -/
def Obligations.DecodeSlicesFields : Prop :=
  ∀ (s : State) (w : Word) (wide : Bool), s.cfg.wellFormed = true →
    ∃ t, exec (.decode w wide) s = .next t ∧
      t = { s with ports := { s.ports with decWord := w, decWide := wide } } ∧
      t.decFields.node.toNat = w.toNat / 2 ^ s.cfg.nodeLsb % 2 ^ 7 ∧
      t.decFields.verb.toNat = (if wide then w.toNat / 2 ^ 16 % 2 ^ 4 * 2 ^ 8 else w.toNat / 2 ^ 8 % 2 ^ 12) ∧
      t.decFields.payload.toNat = (if wide then w.toNat % 2 ^ 16 else w.toNat % 2 ^ 8) ∧
      ∀ x : Word, dec s.cfg ((w &&& ~~~s.cfg.zeroMask) ||| (x &&& s.cfg.zeroMask)) wide = dec s.cfg w wide

/-- R74 (derived): fields to word to fields gives the truncated operands, and so the operands themselves where they are
valid for the form. -/
def Obligations.FieldsRoundTrip : Prop :=
  ∀ (c : Params) (n v p : BitVec 32), c.wellFormed = true →
    dec c (enc c n v p false) false = ⟨n.setWidth 7, v.setWidth 12, (p.setWidth 8).setWidth 16⟩ ∧
    dec c (enc c n v p true) true = ⟨n.setWidth 7, v.extractLsb' 8 4 ++ 0#8, p.setWidth 16⟩ ∧
    (n.toNat < 2 ^ 7 → v.toNat < 2 ^ 12 → p.toNat < 2 ^ 8 →
      let f := dec c (enc c n v p false) false
      f.node.toNat = n.toNat ∧ f.verb.toNat = v.toNat ∧ f.payload.toNat = p.toNat) ∧
    (n.toNat < 2 ^ 7 → v.toNat < 2 ^ 12 → v.extractLsb' 0 8 = 0#8 → p.toNat < 2 ^ 16 →
      let f := dec c (enc c n v p true) true
      f.node.toNat = n.toNat ∧ f.verb.toNat = v.toNat ∧ f.payload.toNat = p.toNat)

/-- R75 (derived): word to fields to word clears the uncovered bits and changes no other; the two masks the rule
names; every word ENCODE can produce comes back exactly, in either form. -/
def Obligations.WordRoundTrip : Prop :=
  ∀ (c : Params), c.wellFormed = true →
    (∀ (w : Word) (wide : Bool), let f := dec c w wide
      enc c (f.node.setWidth 32) (f.verb.setWidth 32) (f.payload.setWidth 32) wide = w &&& ~~~c.zeroMask) ∧
    (∀ (n v p : BitVec 32) (form wide : Bool), let w := enc c n v p form
      let f := dec c w wide
      enc c (f.node.setWidth 32) (f.verb.setWidth 32) (f.payload.setWidth 32) wide = w) ∧
    (c.nodeLsb = 20 → c.zeroMask = 0xF8000000#32) ∧ (c.nodeLsb = 24 → c.zeroMask = 0x80F00000#32)

/-- R72 (derived): for operands valid for the form, ENCODE is the single expression; for some invalid ones it is not. -/
def Obligations.EncodeIsSingleExpression : Prop :=
  ∀ (c : Params), c.wellFormed = true →
    (∀ (n v p : BitVec 32) (wide : Bool), n.toNat < 2 ^ 7 → v.toNat < 2 ^ 12 →
      (if wide then v.extractLsb' 0 8 = 0#8 ∧ p.toNat < 2 ^ 16 else p.toNat < 2 ^ 8) →
      enc c n v p wide = (n <<< c.nodeLsb) ||| (v <<< 8) ||| p) ∧
    (∀ wide, ∃ n v p : BitVec 32, enc c n v p wide ≠ (n <<< c.nodeLsb) ||| (v <<< 8) ||| p)

/-- R76 (derived): reading a word in the form it was not built in, and when the two readings coincide. -/
def Obligations.WrongFormReading : Prop :=
  ∀ (c : Params), c.wellFormed = true →
    (∀ (n v p : BitVec 32),
      dec c (enc c n v p true) false
        = ⟨n.setWidth 7, v.extractLsb' 8 4 ++ p.extractLsb' 8 8, (p.setWidth 8).setWidth 16⟩ ∧
      dec c (enc c n v p false) true
        = ⟨n.setWidth 7, v.extractLsb' 8 4 ++ 0#8, v.extractLsb' 0 8 ++ p.extractLsb' 0 8⟩) ∧
    ∀ w : Word, dec c w false = dec c w true ↔ w.extractLsb' 8 8 = 0#8

/-- R55 (derived): with `verb[7:0]` zero and the payload below 0x100 the two forms are one word. -/
def Obligations.FormsCoincide : Prop :=
  ∀ (c : Params) (n v p : BitVec 32), v.extractLsb' 0 8 = 0#8 → p.toNat < 0x100 →
    enc c n v p false = enc c n v p true

/-! ### The table's decoder and encoder (30_encoding.md) -/

/-- Decoding the encoding of a well-formed verb gives it back: no bit of any row is dropped (R51, R52, R58). The three
port operations have no encoding (R58). -/
def Obligations.VerbEncodingRoundTrip : Prop :=
  ∀ (c : Params) (i : Instr) (v : VerbWord), c.wellFormed = true → i.wellFormed c = true →
    encode c i = some v → decode c v = .ok i

/-- What the decoder accepts is well formed and encodes to the word it was read from: each word has, in each form, one
meaning (R55, R58). -/
def Obligations.DecodedVerbsReencode : Prop :=
  ∀ (c : Params) (v : VerbWord) (i : Instr), c.wellFormed = true → decode c v = .ok i →
    i.wellFormed c = true ∧ encode c i = some v

/-- The decoder refuses exactly the words with an uncovered bit set, by name, and anything but one 32-bit word
(R50, R54; the refusal is the model's choice, log 12). -/
def Obligations.DecoderRefusals : Prop :=
  (∀ (c : Params) (v : VerbWord) (e : DecodeError),
    decode c v = .error e ↔ e = .uncoveredBits ∧ v.word &&& c.zeroMask ≠ 0#32) ∧
  ∀ (c : Params) (nbits w : Nat), decodeBits c nbits w = .error .notOneWord ↔ ¬(nbits = 32 ∧ w < 2 ^ 32)

/-- A few words of 95_test_vectors.md and of R58's patterns, read by the decoder at the default parameters. The first
three come without their form bit: that the decoder then takes a named row's word as form L is the model's choice (R55,
log 12). -/
def Obligations.RowWordsDecode : Prop :=
  decodeTableWord 32 0x0205004F = some (.coefSelect 0x20#7 0x4F#8) ∧
  decodeTableWord 32 0x020C0000 = some (.coefRead 0x20#7) ∧
  decodeTableWord 32 0x0204D429 = some (.coefWrite 0x20#7 0xD429#16) ∧
  decode Params.defaults ⟨0x021F0900#32, false⟩ = .ok (.verbS 0x21#7 0xF09#12 0x00#8) ∧
  decode Params.defaults ⟨0x07FFFFFF#32, true⟩ = .ok (.verbL 0x7F#7 0xF00#12 0xFFFF#16)

/-- R90 to R92: the fields of the three coefficient verbs' words, and the select's word in form S. -/
def Obligations.CoefficientWordFields : Prop :=
  ∀ (c : Params) (n : NodeId), c.wellFormed = true →
    (∀ i : Index, dec c (selectWord c n i) true = ⟨n, c.verbSel, 0#8 ++ i⟩ ∧
      selectWord c n i = shortWord c n c.verbSel i) ∧
    dec c (readWord c n) true = ⟨n, c.verbRd, c.probe⟩ ∧
    ∀ d : Coef, dec c (writeWord c n d) true = ⟨n, c.verbWr, d⟩

/-! ### What a step runs -/

/-- A word the caller presents, when it decodes to `i`, is `exec` of `i` with the request taken off the list; so is an
operation the caller presents, in any step of a running UPDATE (R2, R78). The list is the model's choice (log 9). -/
def Obligations.StepRunsDecodedInstruction : Prop :=
  ∀ (s : State) (i : Instr) (hold : Bool) (rest : List Request), (hold = false ∨ s.busy = false) →
    (∀ v : VerbWord, s.requests = ⟨.word v, hold⟩ :: rest → decode s.cfg v = .ok i →
      step s = exec i { s with requests := rest }) ∧
    (s.requests = ⟨.op i, hold⟩ :: rest → step s = exec i { s with requests := rest })

/-- The word placed for the next step is the instruction the next step runs, on an open channel (log 9), in the form the
model assumes for a word without its form bit (log 12). -/
def Obligations.FetchWordRunsNext : Prop :=
  ∀ (s : State) (w : Nat) (i : Instr), decodeBits s.cfg 32 w = .ok i →
    step (s.withFetchWord 32 w) = exec i { s with channel := .opened }

/-- With nothing to present, while the caller waits for BUSY = 0, or when the caller leaves the step to it, the sequencer
takes its step (that the request list decides is the model's choice, log 9); in IDLE that changes nothing. A word with an
uncovered bit set is still one exchange of that word (R4, log 12). A change of the channel changes nothing else (log 10). -/
def Obligations.StepOtherwise : Prop :=
  ∀ (s : State),
    (s.requests = [] → step s = sequencerStep s) ∧
    (∀ a rest, s.requests = ⟨a, true⟩ :: rest → s.busy = true → step s = sequencerStep s) ∧
    (∀ rest, s.requests = ⟨.pass, false⟩ :: rest → step s = sequencerStep { s with requests := rest }) ∧
    (s.stepReg = .idle → sequencerStep s = .next s) ∧
    (∀ c rest, s.requests = ⟨.channel c, false⟩ :: rest → step s = .next { s with requests := rest, channel := c }) ∧
    (∀ v rest, s.requests = ⟨.word v, false⟩ :: rest → v.word &&& s.cfg.zeroMask ≠ 0#32 →
      step s = sendVerb v.word { s with requests := rest })

/-! ### The verbs the caller sends, whatever the far end (41_coef_verbs.md) -/

/-- Each of the five verbs completes unless the channel never answers: it is one exchange of its row's word, entered in
the history, and it changes no register of the block (R60, R77). -/
def Obligations.VerbsExchangeOnce : Prop :=
  ∀ (s : State) (n : NodeId), s.channel ≠ .hung →
    (∀ v p, SendsVerb s (.verbS n v p) (enc s.cfg (n.setWidth 32) (v.setWidth 32) (p.setWidth 32) false)) ∧
    (∀ v p, SendsVerb s (.verbL n v p) (enc s.cfg (n.setWidth 32) (v.setWidth 32) (p.setWidth 32) true)) ∧
    (∀ i, SendsVerb s (.coefSelect n i)
      (enc s.cfg (n.setWidth 32) (s.cfg.verbSel.setWidth 32) (i.setWidth 32) true)) ∧
    SendsVerb s (.coefRead n) (enc s.cfg (n.setWidth 32) (s.cfg.verbRd.setWidth 32) (s.cfg.probe.setWidth 32) true) ∧
    ∀ d, SendsVerb s (.coefWrite n d)
      (enc s.cfg (n.setWidth 32) (s.cfg.verbWr.setWidth 32) (d.setWidth 32) true)

/-- On a channel that never answers every verb, and every step of a running UPDATE, stops with the named fault (U17,
the model's reading, log 10). -/
def Obligations.HungChannelStops : Prop :=
  ∀ (s : State), s.channel = .hung →
    (∀ n v p, exec (.verbS n v p) s = .fault .channelNeverAnswers) ∧
    (∀ n v p, exec (.verbL n v p) s = .fault .channelNeverAnswers) ∧
    (∀ n i, exec (.coefSelect n i) s = .fault .channelNeverAnswers) ∧
    (∀ n, exec (.coefRead n) s = .fault .channelNeverAnswers) ∧
    (∀ n d, exec (.coefWrite n d) s = .fault .channelNeverAnswers) ∧
    (s.stepReg ≠ .idle → sequencerStep s = .fault .channelNeverAnswers)

/-! ### The reference responder (41_coef_verbs.md section 3) -/

/-- R97, for every word a responder reads as COEF_SELECT, and for the instruction. -/
def Obligations.ReferenceSelect : Prop :=
  ∀ (s : State), Referenced s → s.cfg.wellFormed = true →
    (∀ w : Word, (dec s.cfg w true).node = s.cfg.coefNode → (dec s.cfg w true).verb.high = s.cfg.verbSel.high →
      exchange s w = some (.resp 0x00000000#32,
        answered s w 0x00000000#32 { s.responder with cidx := (dec s.cfg w true).payload.extractLsb' 0 8 })) ∧
    ∀ i : Index, exec (.coefSelect s.cfg.coefNode i) s = .next
      (answered s (selectWord s.cfg s.cfg.coefNode i) 0x00000000#32 { s.responder with cidx := i })

/-- R98, for every word a responder reads as COEF_READ, and for the instruction. -/
def Obligations.ReferenceRead : Prop :=
  ∀ (s : State), Referenced s → s.cfg.wellFormed = true →
    let value : Word := (s.responder.coef.read s.responder.cidx.toNat).setWidth 32
    let after : Responder := { s.responder with cidx := BitVec.ofNat 8 ((s.responder.cidx.toNat + 1) % 256) }
    (∀ w : Word, (dec s.cfg w true).node = s.cfg.coefNode → (dec s.cfg w true).verb.high = s.cfg.verbRd.high →
      exchange s w = some (.resp value, answered s w value after)) ∧
    exec (.coefRead s.cfg.coefNode) s = .next (answered s (readWord s.cfg s.cfg.coefNode) value after)

/-- R99, for every word a responder reads as COEF_WRITE, and for the instruction: the data is stored at the old
pointer, every other coefficient is unchanged, the pointer advances modulo 256, the answer is zero. -/
def Obligations.ReferenceWrite : Prop :=
  ∀ (s : State), Referenced s → s.cfg.wellFormed = true → Memory.wf s.responder.coef = true →
    let stored := fun (d : Coef) (p : Responder) =>
      p.cidx.toNat = (s.responder.cidx.toNat + 1) % 256 ∧ p.coef.read s.responder.cidx.toNat = d ∧
      ∀ j, j ≠ s.responder.cidx.toNat → p.coef.read j = s.responder.coef.read j
    (∀ w : Word, (dec s.cfg w true).node = s.cfg.coefNode → (dec s.cfg w true).verb.high = s.cfg.verbWr.high →
      ∃ p, stored (dec s.cfg w true).payload p ∧
        exchange s w = some (.resp 0x00000000#32, answered s w 0x00000000#32 p)) ∧
    ∀ d : Coef, ∃ p, stored d p ∧ exec (.coefWrite s.cfg.coefNode d) s = .next
      (answered s (writeWord s.cfg s.cfg.coefNode d) 0x00000000#32 p)

/-- R100: a coefficient verb for another node changes no state; a select or a write is answered 1, a read 0. -/
def Obligations.ReferenceWrongNode : Prop :=
  ∀ (s : State), Referenced s → s.cfg.wellFormed = true →
    (∀ w : Word, (dec s.cfg w true).node ≠ s.cfg.coefNode →
      (((dec s.cfg w true).verb.high = s.cfg.verbSel.high ∨ (dec s.cfg w true).verb.high = s.cfg.verbWr.high) →
        exchange s w = some (.resp 0x00000001#32, answered s w 0x00000001#32 s.responder)) ∧
      ((dec s.cfg w true).verb.high = s.cfg.verbRd.high →
        exchange s w = some (.resp 0x00000000#32, answered s w 0x00000000#32 s.responder))) ∧
    ∀ n : NodeId, n ≠ s.cfg.coefNode →
      (∀ i, exec (.coefSelect n i) s = .next (answered s (selectWord s.cfg n i) 0x00000001#32 s.responder)) ∧
      (∀ d, exec (.coefWrite n d) s = .next (answered s (writeWord s.cfg n d) 0x00000001#32 s.responder)) ∧
      exec (.coefRead n) s = .next (answered s (readWord s.cfg n) 0x00000000#32 s.responder)

/-- R101: any other word changes no state and is answered 0; so VERB.S and VERB.L with another verb id. -/
def Obligations.ReferenceOtherVerbs : Prop :=
  ∀ (s : State), Referenced s → s.cfg.wellFormed = true →
    let other := fun h : BitVec 4 => h ≠ s.cfg.verbSel.high ∧ h ≠ s.cfg.verbRd.high ∧ h ≠ s.cfg.verbWr.high
    (∀ w : Word, other (dec s.cfg w true).verb.high →
      exchange s w = some (.resp 0x00000000#32, answered s w 0x00000000#32 s.responder)) ∧
    ∀ (n : NodeId) (v : VerbId), other v.high →
      (∀ p, exec (.verbS n v p) s = .next (answered s (shortWord s.cfg n v p) 0x00000000#32 s.responder)) ∧
      (∀ p, exec (.verbL n v p) s = .next (answered s (longWord s.cfg n v p) 0x00000000#32 s.responder))

/-- R102: a replaced answer is the answer; the far end's state does not change for `ChannelError` and for a replaced
select or write answer, and a replaced read answer still advances the pointer. -/
def Obligations.ReplacedAnswers : Prop :=
  ∀ (s : State) (a : Answer) (rest : List (Option Answer)) (i : Index) (d : Coef),
    s.channel = .opened → s.cfg.farEnd = .reference → s.cfg.wellFormed = true → s.replaced = some a :: rest →
    let after := fun (w : Word) (p : Responder) =>
      { s with responder := p, replaced := rest, history := ⟨w, a⟩ :: s.history, draws := s.draws + 1 }
    (a = .channelError → ∀ w, exchange s w = some (a, after w s.responder)) ∧
    exec (.coefSelect s.cfg.coefNode i) s = .next (after (selectWord s.cfg s.cfg.coefNode i) s.responder) ∧
    exec (.coefWrite s.cfg.coefNode d) s = .next (after (writeWord s.cfg s.cfg.coefNode d) s.responder) ∧
    (a ≠ .channelError → exec (.coefRead s.cfg.coefNode) s = .next
      (after (readWord s.cfg s.cfg.coefNode) { s.responder with cidx := s.responder.cidx + 1 }))

/-- R103 (derived): with CIDX = i, two reads in a row return two neighbours; a read and then a write hits the next
coefficient; a select, a write, a select and a read give back what was written. -/
def Obligations.ReferenceConsequences : Prop :=
  ∀ (s : State), Referenced s → s.cfg.wellFormed = true → Memory.wf s.responder.coef = true →
    let node := s.cfg.coefNode
    let i := s.responder.cidx
    let next := (i.toNat + 1) % 256
    (∃ t u, exec (.coefRead node) s = .next t ∧ exec (.coefRead node) t = .next u ∧
      t.lastAnswer = some (.resp ((s.responder.coef.read i.toNat).setWidth 32)) ∧
      u.lastAnswer = some (.resp ((s.responder.coef.read next).setWidth 32))) ∧
    (∀ d, ∃ t u, exec (.coefRead node) s = .next t ∧ exec (.coefWrite node d) t = .next u ∧
      u.responder.coef.read next = d ∧ CoefsSameBut [next] s u) ∧
    ∀ j d, ∃ t u v x, exec (.coefSelect node j) s = .next t ∧ exec (.coefWrite node d) t = .next u ∧
      exec (.coefSelect node j) u = .next v ∧ exec (.coefRead node) v = .next x ∧
      x.lastAnswer = some (.resp (d.setWidth 32))

/-- The frame of the verbs over the coefficient space, with the reference responder: a COEF_SELECT and a COEF_READ
leave every coefficient, any other verb every coefficient but the one at the pointer; replaced answers included. -/
def Obligations.VerbsCoefficientFrame : Prop :=
  ∀ (s t : State) (n : NodeId), s.cfg.farEnd = .reference → s.cfg.wellFormed = true →
    (∀ i, exec (.coefSelect n i) s = .next t → CoefsSameBut [] s t) ∧
    (exec (.coefRead n) s = .next t → CoefsSameBut [] s t) ∧
    (∀ d, exec (.coefWrite n d) s = .next t → CoefsSameBut [s.responder.cidx.toNat] s t) ∧
    (∀ v p, exec (.verbS n v p) s = .next t → CoefsSameBut [s.responder.cidx.toNat] s t) ∧
    (∀ v p, exec (.verbL n v p) s = .next t → CoefsSameBut [s.responder.cidx.toNat] s t)

/-! ### A device (R93, R94) -/

/-- What may be assumed of every device (R93): an accepted select sets the pointer; an answered read that is no
sentinel carries the coefficient at the pointer in `r[15:0]` and moves the pointer to the next index. Everything else
is free (R94, log 5): also after a word that R95 recognises but
that is not, bit for bit, the one R90 or R91 gives. -/
def Obligations.DeviceAnswers : Prop :=
  ∀ (s : State), Deviced s → s.cfg.wellFormed = true →
    (∀ i, ∃ a t, exec (.coefSelect s.cfg.coefNode i) s = .next t ∧ t.lastAnswer = some a ∧
      (a = .resp 0x00000000#32 → t.responder.cidx = i)) ∧
    ∃ a t, exec (.coefRead s.cfg.coefNode) s = .next t ∧ t.lastAnswer = some a ∧
      ∀ r, a = .resp r →
        (r ≠ 0xFFFFFFFF#32 → r.extractLsb' 0 16 = t.responder.coef.read s.responder.cidx.toNat) ∧
        (s.responder.cidx ≠ 0xFF#8 → t.responder.cidx = s.responder.cidx + 1)

/-! ### UPDATE: start and steps (42_coef_update.md) -/

/-- R111: the start latches the truncated operands; a start while busy is ignored and not queued, only the input ports
hold the new operands. Nothing is said here of what STATUS and RESULT hold after a start (R173, log 8). -/
def Obligations.UpdateStart : Prop :=
  ∀ (s : State) (n i m v : BitVec 32),
    (s.stepReg = .idle → ∃ st r, exec (.update n i m v) s = .next
      { s with
        ports := { s.ports with updNode := n, updIndex := i, updMask := m, updValue := v }
        node := n.setWidth 7, idx := i.setWidth 8, mask := m.setWidth 16, val := v.setWidth 16
        done := false, stepReg := .sel1, status := st, result := r, draws := s.draws + 1 }) ∧
    (s.stepReg ≠ .idle → exec (.update n i m v) s = .next
      { s with ports := { s.ports with updNode := n, updIndex := i, updMask := m, updValue := v } })

/-- R112: in every step other than IDLE exactly one exchange happens; a channel error ends the UPDATE at once. -/
def Obligations.ChannelErrorEndsUpdate : Prop :=
  ∀ (s : State), s.stepReg ≠ .idle → s.channel ≠ .hung →
    ∃ w a t u, s.chCmd = some w ∧ exchange s w = some (a, t) ∧ sequencerStep s = .next u ∧
      u.history = ⟨w, a⟩ :: s.history ∧
      (a = .channelError → Ended t u .channelError ∧ u.chCmd = none)

/-- R113, R119, R122: the three select steps, each with the same word; any answer but RESP_OK is a rejection. -/
def Obligations.SelectSteps : Prop :=
  ∀ (s t : State) (r : Word) (next : SeqStep),
    ((s.stepReg = .sel1 ∧ next = .rd1) ∨ (s.stepReg = .sel2 ∧ next = .wr) ∨ (s.stepReg = .sel3 ∧ next = .rd2)) →
    exchange s (enc s.cfg (s.node.setWidth 32) (s.cfg.verbSel.setWidth 32) (s.idx.setWidth 32) true)
      = some (.resp r, t) →
    ∃ u, sequencerStep s = .next u ∧
      (r ≠ 0x00000000#32 → Ended t u .writeRejected ∧ u.chCmd = none) ∧
      (r = 0x00000000#32 → u = { t with stepReg := next })

/-- R114, R116, R117, R118: the first read. CUR is `r[15:0]`, NEW is the merge; when they are equal the UPDATE ends
with RESULT = CUR and no further command, else the write is under way. -/
def Obligations.FirstReadStep : Prop :=
  ∀ (s t : State) (r : Word), s.stepReg = .rd1 → r ≠ 0xFFFFFFFF#32 →
    exchange s (enc s.cfg (s.node.setWidth 32) (s.cfg.verbRd.setWidth 32) (s.cfg.probe.setWidth 32) true)
      = some (.resp r, t) →
    ∃ u, sequencerStep s = .next u ∧ u.cur = r.extractLsb' 0 16 ∧
      u.new = (u.cur &&& ~~~s.mask) ||| (s.val &&& s.mask) ∧
      (u.new = u.cur → u.chCmd = none ∧ u =
        { t with cur := u.cur, new := u.new, result := u.cur, status := .ok, done := true, stepReg := .idle }) ∧
      (u.new ≠ u.cur → u = { t with cur := u.cur, new := u.new, stepReg := .sel2 })

/-- R115: a read answered all ones, in RD1 or RD2, ends the UPDATE; no write is made from it. -/
def Obligations.InvalidReadEndsUpdate : Prop :=
  ∀ (s t : State), s.stepReg = .rd1 ∨ s.stepReg = .rd2 →
    exchange s (enc s.cfg (s.node.setWidth 32) (s.cfg.verbRd.setWidth 32) (s.cfg.probe.setWidth 32) true)
      = some (.resp 0xFFFFFFFF#32, t) →
    ∃ u, sequencerStep s = .next u ∧ Ended t u .readInvalid ∧ u.chCmd = none

/-- R120, R121: the write step sends NEW; any answer but RESP_OK is a rejection, after which nothing is sent. -/
def Obligations.WriteStep : Prop :=
  ∀ (s t : State) (r : Word), s.stepReg = .wr →
    exchange s (enc s.cfg (s.node.setWidth 32) (s.cfg.verbWr.setWidth 32) (s.new.setWidth 32) true)
      = some (.resp r, t) →
    ∃ u, sequencerStep s = .next u ∧
      (r ≠ 0x00000000#32 → Ended t u .writeRejected ∧ u.chCmd = none) ∧
      (r = 0x00000000#32 → u = { t with stepReg := .sel3 })

/-- R123, R124: the read-back is RESULT, whatever NEW is; CUR and NEW stay. -/
def Obligations.ReadBackStep : Prop :=
  ∀ (s t : State) (r : Word), s.stepReg = .rd2 → r ≠ 0xFFFFFFFF#32 →
    exchange s (enc s.cfg (s.node.setWidth 32) (s.cfg.verbRd.setWidth 32) (s.cfg.probe.setWidth 32) true)
      = some (.resp r, t) →
    sequencerStep s = .next
      { t with result := r.extractLsb' 0 16, status := .ok, done := true, stepReg := .idle } ∧
    t.cur = s.cur ∧ t.new = s.new

/-- R143: raising a failure sets STATUS to its code, DONE and STEP; RESULT may be anything; nothing else changes but
the model's draw counter, and no command follows. The codes are those of R140. -/
def Obligations.RaisingAFailure : Prop :=
  ∀ (s : State) (f : Failure),
    let code : BitVec 2 := match f with | .channelError => 1 | .writeRejected => 2 | .readInvalid => 3
    Ended s (raiseFailure f s) (raiseFailure f s).status ∧ (raiseFailure f s).updStatus = code ∧
    (raiseFailure f s).chCmd = none ∧ (raiseFailure f s).updResult = none ∧ Status.code .ok = 0

/-- R117: NEW bit by bit. -/
def Obligations.MergeBitByBit : Prop :=
  ∀ (cur mask val : Coef) (b : Nat), b < 16 →
    (merge cur mask val).getLsbD b = if mask.getLsbD b then val.getLsbD b else cur.getLsbD b

/-- R128 (derived): the laws (a) to (e) of the merge. -/
def Obligations.MergeLaws : Prop :=
  ∀ (cur mask val : Coef),
    merge cur mask val &&& ~~~mask = cur &&& ~~~mask ∧
    merge cur mask val &&& mask = val &&& mask ∧
    merge cur mask (val &&& mask) = merge cur mask val ∧
    merge (merge cur mask val) mask val = merge cur mask val ∧
    (merge cur mask val = cur ↔ (cur ^^^ val) &&& mask = 0#16)

/-! ### UPDATE as a whole -/

/-- R125 (derived): the start and the steps of the sequencer are the pseudocode block, from every idle state, on every
channel and with every far end. That STATUS and RESULT are free values after the start is the model's choice (log 8). -/
def Obligations.UpdateRefinesPseudocode : Prop :=
  ∀ (s : State) (n i m v : BitVec 32), Quiet s →
    exec (.update n i m v) s = .next (started s n i m v) ∧
    Sys2Proof.core.run 6 (started s n i m v) = wholeUpdate (started s n i m v)

/-- R127 (derived): with every far end, an UPDATE ends after one to six exchanges, and they and its outcome are a row of
the table. That STATUS and RESULT are free values after the start is the model's choice (log 8). -/
def Obligations.UpdateHistories : Prop :=
  ∀ (s : State) (n i m v : BitVec 32), Quiet s → s.channel ≠ .hung →
    ∃ u e, exec (.update n i m v) s = .next (started s n i m v) ∧
      Sys2Proof.core.run e.length (started s n i m v) = .next u ∧
      u.stepReg = .idle ∧ u.done = true ∧ u.history = e.reverse ++ s.history ∧
      1 ≤ e.length ∧ e.length ≤ 6 ∧ UpdateHistory (started s n i m v) u e

/-- 95_test_vectors.md section 6, item 5: with the reference responder an UPDATE leaves exactly the merged value in the
coefficient, returns it, and touches no other. -/
def Obligations.UpdateWithReference : Prop :=
  ∀ (s : State) (n i m v : BitVec 32), Quiet s → Referenced s → s.cfg.wellFormed = true →
    Memory.wf s.responder.coef = true → n.setWidth 7 = s.cfg.coefNode →
    let k := i.toNat % 256
    let old := s.responder.coef.read k
    let merged := (old &&& ~~~m.setWidth 16) ||| (v.setWidth 16 &&& m.setWidth 16)
    ∃ t u, exec (.update n i m v) s = .next t ∧ Sys2Proof.core.run 6 t = .next u ∧
      u.stepReg = .idle ∧ u.updResult = some merged ∧ u.responder.coef.read k = merged ∧ CoefsSameBut [k] s u ∧
      u.history.length = s.history.length + (if merged = old then 2 else 6)

/-- R128 (d) (derived): the same UPDATE again, with the reference responder, sends two commands, no write, and gives the
same value. -/
def Obligations.SecondUpdateSendsNoWrite : Prop :=
  ∀ (s : State) (n i m v : BitVec 32), Quiet s → Referenced s → s.cfg.wellFormed = true →
    Memory.wf s.responder.coef = true → n.setWidth 7 = s.cfg.coefNode →
    ∃ t u x y, exec (.update n i m v) s = .next t ∧ Sys2Proof.core.run 6 t = .next u ∧
      exec (.update n i m v) u = .next x ∧ Sys2Proof.core.run 6 x = .next y ∧
      y.updResult = u.updResult ∧ y.updResult.isSome = true ∧ CoefsSameBut [] u y ∧
      y.history.map Exchange.command =
        [readWord s.cfg s.cfg.coefNode, selectWord s.cfg s.cfg.coefNode (i.setWidth 8)]
          ++ u.history.map Exchange.command

/-- R129 (a) (derived): with the mask zero an UPDATE that has taken two steps has ended, after at most two exchanges, and
a valid RESULT is the low half of the last response, with every far end (from the state a start leaves, log 8). Which
commands it sends is MaskZeroSendsSelectAndRead. -/
def Obligations.MaskZeroEndsInTwoExchanges : Prop :=
  ∀ (s u : State) (n i m v : BitVec 32), Quiet s → m.setWidth 16 = 0#16 →
    Sys2Proof.core.run 2 (started s n i m v) = .next u →
    u.stepReg = .idle ∧ u.done = true ∧ u.history.length ≤ s.history.length + 2 ∧
    (u.status = .ok → ∃ r : Word, u.lastAnswer = some (.resp r) ∧ u.result = r.extractLsb' 0 16)

/-- R129 (a) (derived): with the mask zero the commands of an UPDATE are one select of the index, and after it, where that
was answered RESP_OK, one read, and no other, on every channel that answers and with every far end (that STATUS and
RESULT are free values after the start is the model's choice, log 8). -/
def Obligations.MaskZeroSendsSelectAndRead : Prop :=
  ∀ (s : State) (n i m v : BitVec 32), Quiet s → s.channel ≠ .hung → m.setWidth 16 = 0#16 →
    let sel := selectWord s.cfg (n.setWidth 7) (i.setWidth 8)
    let rd := readWord s.cfg (n.setWidth 7)
    ∃ u a, exec (.update n i m v) s = .next (started s n i m v) ∧
      Sys2Proof.core.run 2 (started s n i m v) = .next u ∧ u.stepReg = .idle ∧
      ((a ≠ .resp 0x00000000#32 ∧ u.history = ⟨sel, a⟩ :: s.history) ∨
       u.history = ⟨rd, a⟩ :: ⟨sel, .resp 0x00000000#32⟩ :: s.history)

/-- R166: an UPDATE on a channel that is not open ends on its first exchange, with ST_CHANNEL_ERROR or
ST_WRITE_REJECTED (the answers are the model's reading of R166, log 10; that STATUS and RESULT are free values after the
start is its choice, log 8). -/
def Obligations.ClosedChannelUpdate : Prop :=
  ∀ (s : State) (n i m v : BitVec 32), Quiet s → s.channel = .closed → s.cfg.wellFormed = true →
    ∃ u, exec (.update n i m v) s = .next (started s n i m v) ∧ step (started s n i m v) = .next u ∧
      u.stepReg = .idle ∧ u.done = true ∧ (u.status = .channelError ∨ u.status = .writeRejected) ∧
      u.history.length = s.history.length + 1

/-- 10_state.md section 5: an UPDATE reads no register of the sequencer as an earlier one left it. Two idle states that agree on
everything else give the same exchanges, the same outcome and the same far end. That equal draw counters draw equal free
values is the model's form (log 20). -/
def Obligations.UpdateForgetsEarlierUpdates : Prop :=
  ∀ (s x : State) (n i m v : BitVec 32), Quiet s → Quiet x → s.channel ≠ .hung →
    x.cfg = s.cfg → x.channel = s.channel → x.responder = s.responder → x.replaced = s.replaced →
    x.history = s.history → x.draws = s.draws →
    ∃ u y, Sys2Proof.core.run 6 (started s n i m v) = .next u ∧ Sys2Proof.core.run 6 (started x n i m v) = .next y ∧
      y.status = u.status ∧ (u.status = .ok → y.result = u.result) ∧ y.done = u.done ∧ y.stepReg = u.stepReg ∧
      y.history = u.history ∧ y.responder = u.responder

/-- R11: once an UPDATE runs, what stands on the input ports has no effect on the sequencer. -/
def Obligations.LatchedOperandsOnly : Prop :=
  ∀ (s t : State) (p : Ports), sequencerStep s = .next t →
    sequencerStep { s with ports := p } = .next { t with ports := p }

/-- R78 (derived): ENCODE and DECODE can be used while an UPDATE runs: before or after a step of the sequencer, the
outcome is the same. -/
def Obligations.CodecDoesNotInterfere : Prop :=
  ∀ (s t : State), sequencerStep s = .next t →
    (∀ n v p wide, ∃ x y, exec (.encode n v p wide) s = .next x ∧ sequencerStep x = .next y ∧
      exec (.encode n v p wide) t = .next y ∧ y.encWord = x.encWord) ∧
    (∀ w wide, ∃ x y, exec (.decode w wide) s = .next x ∧ sequencerStep x = .next y ∧
      exec (.decode w wide) t = .next y ∧ y.decFields = x.decFields)

/-- False on purpose (90_conflicts.md C2): no UPDATE sends more than four commands. -/
def Obligations.UpdateSendsAtMostFour : Prop :=
  ∀ (s u : State) (n i m v : BitVec 32), Quiet s → Referenced s → s.cfg.wellFormed = true →
    Sys2Proof.core.run 6 (started s n i m v) = .next u → u.history.length ≤ s.history.length + 4

/-- False on purpose (R124, D28): ST_OK after a write means that RESULT is NEW. -/
def Obligations.OkMeansResultIsNew : Prop :=
  ∀ (s u : State) (n i m v : BitVec 32), Quiet s → s.channel = .opened → s.cfg.wellFormed = true →
    Sys2Proof.core.run 6 (started s n i m v) = .next u → u.status = .ok → u.result = u.new

/-! ### Invariants and the whole machine -/

/-- Every step keeps the invariant: the coefficient space canonical, NEW the merge of CUR and different from it while a
write is under way, DONE = 0 while an UPDATE runs. -/
def Obligations.StepKeepsInvariant : Prop :=
  ∀ (s t : State), s.Inv → step s = .next t → t.Inv

/-- The invariant holds after reset, with parameters that meet R5's constraints, and with nothing to do the machine stays
there (the reset values the spec leaves open are the model's choice, log 2, log 3, log 9). -/
def Obligations.ResetHasInvariant : Prop :=
  State.reset.Inv ∧ SelectedInv State.reset ∧ State.reset.cfg.wellFormed = true ∧ step State.reset = .next State.reset

/-- R19, R169: the sequencer sends a COEF_SELECT immediately before every COEF_READ and every COEF_WRITE. Its steps keep
that the newest exchange is the accepted select of IDX whenever the next is an access; the start of an UPDATE too. -/
def Obligations.SelectBeforeEveryAccess : Prop :=
  (∀ s t : State, SelectedInv s → sequencerStep s = .next t → SelectedInv t) ∧
  (∀ (s t : State) (n i m v : BitVec 32), SelectedInv s → exec (.update n i m v) s = .next t → SelectedInv t)

/-- R92's corner case: the sequencer never sends a write whose data equals the value it just read; while a write is
sent, NEW differs from CUR and keeps CUR's bits outside the mask. -/
def Obligations.WriteIsNeverRedundant : Prop :=
  ∀ (s : State), s.Inv → s.stepReg = .wr →
    s.chCmd = some (enc s.cfg (s.node.setWidth 32) (s.cfg.verbWr.setWidth 32) (s.new.setWidth 32) true) ∧
    s.new ≠ s.cur ∧ s.new &&& ~~~s.mask = s.cur &&& ~~~s.mask ∧ s.new &&& s.mask = s.val &&& s.mask

/-- R167: the parameters never change. -/
def Obligations.StepKeepsParameters : Prop :=
  ∀ (s t : State), step s = .next t → t.cfg = s.cfg

/-- R38: the history is totally ordered and only grows, by at most one exchange a step. -/
def Obligations.StepAddsAtMostOneExchange : Prop :=
  ∀ (s t : State), step s = .next t → t.history = s.history ∨ ∃ e, t.history = e :: s.history

/-- R147: nothing cuts an UPDATE short. While one runs, a step leaves the latches alone, and either it goes on or it has
ended with DONE = 1. -/
def Obligations.RunningUpdateIsNotCut : Prop :=
  ∀ (s t : State), s.stepReg ≠ .idle → step s = .next t →
    t.node = s.node ∧ t.idx = s.idx ∧ t.mask = s.mask ∧ t.val = s.val ∧ (t.stepReg = .idle → t.done = true)

/-- R21: after reset STEP is IDLE, DONE is 0 and no exchange is requested. -/
def Obligations.ResetState : Prop :=
  State.reset.stepReg = .idle ∧ State.reset.done = false ∧ State.reset.busy = false ∧ State.reset.chCmd = none

/-- R161, R162: the reset event establishes STEP = IDLE and DONE = 0, sends no command and does not reach the responder;
while an UPDATE runs it is refused. -/
def Obligations.ResetEvent : Prop :=
  ∀ (s : State) (rest : List Request), s.requests = ⟨.reset, false⟩ :: rest →
    (s.stepReg = .idle → ∃ t, step s = .next t ∧ t.stepReg = .idle ∧ t.done = false ∧ t.chCmd = none ∧
      t.responder = s.responder ∧ t.history = s.history ∧ t.cfg = s.cfg) ∧
    (s.stepReg ≠ .idle → step s = .refused .resetWhileBusy)
end

