-- ==== Sys2Proof/Laws/Codec.lean ====
section
/-! SUPPORT. The codec bit by bit: what stands at each bit of an encoded word, of each decoded field and of the mask of
uncovered bits, so that no later proof unfolds `enc` or `dec`. -/

namespace Sys2Proof

theorem nodeLsb_range {c : Params} (h : c.wellFormed = true) : 20 ≤ c.nodeLsb ∧ c.nodeLsb ≤ 25 := by
  simp only [Params.wellFormed, Bool.and_eq_true, decide_eq_true_eq] at h
  omega

theorem verbLow_zero {c : Params} (h : c.wellFormed = true) :
    c.verbSel.low = 0 ∧ c.verbRd.low = 0 ∧ c.verbWr.low = 0 := by
  simp only [Params.wellFormed, Bool.and_eq_true, beq_iff_eq] at h
  exact ⟨h.1.1.1.1.1.2, h.1.1.1.1.2, h.1.1.1.2⟩

theorem verbHigh_ne {c : Params} (h : c.wellFormed = true) :
    c.verbSel.high ≠ c.verbRd.high ∧ c.verbSel.high ≠ c.verbWr.high ∧ c.verbRd.high ≠ c.verbWr.high := by
  simp only [Params.wellFormed, Bool.and_eq_true, bne_iff_ne] at h
  exact ⟨h.1.1.2, h.1.2, h.2⟩

/-- Form S, bit by bit. -/
theorem enc_short_getLsbD (c : Params) (n v p : BitVec 32) (k : Nat) :
    (enc c n v p false).getLsbD k =
      (decide (k < 32) && ((decide (c.nodeLsb ≤ k) && decide (k - c.nodeLsb < 7) && n.getLsbD (k - c.nodeLsb))
        || (decide (8 ≤ k) && decide (k - 8 < 12) && v.getLsbD (k - 8))
        || (decide (k < 8) && p.getLsbD k))) := by
  have h : c.nodeLsb ≤ k → k < 32 → k - c.nodeLsb < 32 := by omega
  have h8 : k < 32 → k - 8 < 32 := by omega
  simp only [enc, Bool.false_eq_true, if_false, BitVec.getLsbD_or, BitVec.getLsbD_shiftLeft, BitVec.getLsbD_setWidth]
  have h2 : (8 ≤ k) = ¬ k < 8 := by simp
  by_cases hk : k < 32 <;> by_cases h1 : c.nodeLsb ≤ k <;> by_cases h3 : k < 8 <;>
    simp [hk, h1, h2, h3, h, h8, Nat.not_lt.2]

/-- Form L, bit by bit. -/
theorem enc_long_getLsbD (c : Params) (n v p : BitVec 32) (k : Nat) :
    (enc c n v p true).getLsbD k =
      (decide (k < 32) && ((decide (c.nodeLsb ≤ k) && decide (k - c.nodeLsb < 7) && n.getLsbD (k - c.nodeLsb))
        || (decide (16 ≤ k) && decide (k - 16 < 4) && v.getLsbD (8 + (k - 16)))
        || (decide (k < 16) && p.getLsbD k))) := by
  have h : c.nodeLsb ≤ k → k < 32 → k - c.nodeLsb < 32 := by omega
  have h8 : k < 32 → k - 16 < 32 := by omega
  simp only [enc, if_true, BitVec.getLsbD_or, BitVec.getLsbD_shiftLeft, BitVec.getLsbD_setWidth,
    BitVec.getLsbD_extractLsb']
  have h2 : (16 ≤ k) = ¬ k < 16 := by simp
  by_cases hk : k < 32 <;> by_cases h1 : c.nodeLsb ≤ k <;> by_cases h3 : k < 16 <;>
    simp [hk, h1, h2, h3, h, h8, Nat.not_lt.2]

theorem dec_node_getLsbD (c : Params) (w : Word) (b : Bool) (k : Nat) :
    (dec c w b).node.getLsbD k = (decide (k < 7) && w.getLsbD (c.nodeLsb + k)) := by
  cases b <;> simp [dec, BitVec.getLsbD_extractLsb']

theorem dec_short_verb_getLsbD (c : Params) (w : Word) (k : Nat) :
    (dec c w false).verb.getLsbD k = (decide (k < 12) && w.getLsbD (8 + k)) := by
  simp [dec, BitVec.getLsbD_extractLsb']

theorem dec_short_payload_getLsbD (c : Params) (w : Word) (k : Nat) :
    (dec c w false).payload.getLsbD k = (decide (k < 8) && w.getLsbD k) := by
  simp only [dec, Bool.false_eq_true, if_false, BitVec.getLsbD_setWidth, BitVec.getLsbD_extractLsb', Nat.zero_add]
  by_cases h : k < 8 <;> simp [h]
  omega

theorem dec_long_verb_getLsbD (c : Params) (w : Word) (k : Nat) :
    (dec c w true).verb.getLsbD k = (decide (8 ≤ k) && decide (k < 12) && w.getLsbD (8 + k)) := by
  simp only [dec, if_true, BitVec.getLsbD_append, BitVec.getLsbD_extractLsb', BitVec.getLsbD_zero]
  by_cases h : k < 8
  · simp [h, Nat.not_le.2 h]
  · have h1 : 16 + (k - 8) = 8 + k := by omega
    have h2 : (k - 8 < 4) ↔ k < 12 := by omega
    simp [h, h1, h2, Nat.not_lt.1 h]

theorem dec_long_payload_getLsbD (c : Params) (w : Word) (k : Nat) :
    (dec c w true).payload.getLsbD k = (decide (k < 16) && w.getLsbD k) := by
  simp [dec, BitVec.getLsbD_extractLsb']

/-- The uncovered bits are those outside the node field and above bit 19. -/
theorem zeroMask_getLsbD (c : Params) (k : Nat) :
    c.zeroMask.getLsbD k =
      (decide (k < 32) && !(decide (c.nodeLsb ≤ k) && decide (k - c.nodeLsb < 7)) && !decide (k < 20)) := by
  have hf : ∀ j, (0x7F#32).getLsbD j = decide (j < 7) := fun j => by
    rw [BitVec.getLsbD_ofNat, show (0x7F : Nat) = 2 ^ 7 - 1 from rfl, Nat.testBit_two_pow_sub_one]
    by_cases h : j < 7 <;> simp [h]
    omega
  have hm : ∀ j, (0x000FFFFF#32).getLsbD j = decide (j < 20) := fun j => by
    rw [BitVec.getLsbD_ofNat, show (0x000FFFFF : Nat) = 2 ^ 20 - 1 from rfl, Nat.testBit_two_pow_sub_one]
    by_cases h : j < 20 <;> simp [h]
    omega
  simp only [Params.zeroMask, BitVec.getLsbD_not, BitVec.getLsbD_or, BitVec.getLsbD_shiftLeft, hf, hm]
  by_cases h0 : k < 32 <;> by_cases h1 : c.nodeLsb ≤ k <;> by_cases h2 : k < 20 <;>
    simp_all [Nat.not_lt.2]

/-- R54: ENCODE writes every uncovered bit as zero. -/
theorem enc_uncovered (c : Params) (n v p : BitVec 32) (b : Bool) : enc c n v p b &&& c.zeroMask = 0#32 := by
  apply BitVec.eq_of_getLsbD_eq
  intro k hk
  rw [BitVec.getLsbD_and, zeroMask_getLsbD, BitVec.getLsbD_zero]
  by_cases h2 : k < 20
  · simp [h2]
  by_cases h1 : c.nodeLsb ≤ k ∧ k - c.nodeLsb < 7
  · simp [h1.1, h1.2]
  have hn : (decide (c.nodeLsb ≤ k) && decide (k - c.nodeLsb < 7)) = false := by simpa using h1
  cases b
  · rw [enc_short_getLsbD]
    simp [hn, show ¬ k - 8 < 12 by omega, show ¬ k < 8 by omega]
  · rw [enc_long_getLsbD]
    simp [hn, show ¬ k - 16 < 4 by omega, show ¬ k < 16 by omega]

end Sys2Proof
end

