-- ==== Sys2Proof/Laws/Memory.lean ====
section
/-! SUPPORT. The coefficient space: read after write, and every operation keeps the canonical form. -/

namespace Sys2Proof.Machine

@[simp] theorem Memory.read_nil (i : Nat) : Memory.read [] i = unlistedCoef := rfl

theorem Memory.wf_cons (a : Nat) (v : Coef) (m : Memory) :
    Memory.wf ((a, v) :: m) = true ↔
      a < 256 ∧ v ≠ unlistedCoef ∧ (∀ c ∈ m, a < c.1) ∧ Memory.wf m = true := by
  simp [Memory.wf, and_assoc]

theorem Memory.read_of_lt (m : Memory) (i : Nat) (h : ∀ c ∈ m, i < c.1) : m.read i = unlistedCoef := by
  induction m with
  | nil => rfl
  | cons c m ih =>
    obtain ⟨a, v⟩ := c
    have ha : i < a := h (a, v) (by simp)
    simp only [Memory.read, if_neg (by omega : ¬ a = i)]
    exact ih fun c hc => h c (List.mem_cons_of_mem _ hc)

/-- A write leaves every other coefficient alone. -/
theorem Memory.read_write_other (m : Memory) (i j : Nat) (v : Coef) (h : j ≠ i) :
    (m.write i v).read j = m.read j := by
  induction m with
  | nil =>
    simp only [Memory.write]
    split <;> simp [Memory.read, Ne.symm h]
  | cons c m ih =>
    obtain ⟨a, u⟩ := c
    simp only [Memory.write]
    split
    · split <;> simp [Memory.read, Ne.symm h]
    · split
      · next ha =>
        subst ha
        split <;> simp [Memory.read, Ne.symm h]
      · simp only [Memory.read, ih]

/-- A read after a write to the same coefficient gives the value written. -/
theorem Memory.read_write_same (m : Memory) (i : Nat) (v : Coef) (h : Memory.wf m = true) :
    (m.write i v).read i = v := by
  induction m with
  | nil =>
    simp only [Memory.write]
    split <;> simp_all [Memory.read]
  | cons c m ih =>
    obtain ⟨a, u⟩ := c
    obtain ⟨_, _, hlt, hm⟩ := (Memory.wf_cons a u m).1 h
    simp only [Memory.write]
    split
    · next hia =>
      split
      · next hv =>
        rw [hv]
        exact Memory.read_of_lt _ _ fun c hc => by
          rcases List.mem_cons.1 hc with rfl | hc
          · exact hia
          · exact Nat.lt_trans hia (hlt c hc)
      · simp [Memory.read]
    · split
      · next ha =>
        subst ha
        split
        · next hv => rw [hv]; exact Memory.read_of_lt _ _ hlt
        · simp [Memory.read]
      · next ha => simp only [Memory.read, if_neg (Ne.symm ha), ih hm]

theorem Memory.mem_write {m : Memory} {i : Nat} {v : Coef} {c : Nat × Coef} (h : c ∈ m.write i v) :
    c.1 = i ∨ c ∈ m := by
  induction m with
  | nil =>
    simp only [Memory.write] at h
    split at h <;> simp_all
  | cons d m ih =>
    obtain ⟨a, u⟩ := d
    simp only [Memory.write] at h
    split at h
    · split at h <;> simp_all
      rcases h with rfl | h <;> simp_all
    · split at h
      · split at h <;> simp_all
        rcases h with rfl | h <;> simp_all
      · rcases List.mem_cons.1 h with rfl | h
        · simp
        · rcases ih h with h | h <;> simp [h]

/-- A write keeps the canonical form. -/
theorem Memory.wf_write (m : Memory) (i : Nat) (v : Coef) (hi : i < 256) (h : Memory.wf m = true) :
    Memory.wf (m.write i v) = true := by
  induction m with
  | nil =>
    simp only [Memory.write]
    split <;> simp_all [Memory.wf]
  | cons c m ih =>
    obtain ⟨a, u⟩ := c
    obtain ⟨ha, hu, hlt, hm⟩ := (Memory.wf_cons a u m).1 h
    simp only [Memory.write]
    split
    · next hia =>
      split
      · exact h
      · next hv =>
        refine (Memory.wf_cons _ _ _).2 ⟨hi, hv, fun c hc => ?_, h⟩
        rcases List.mem_cons.1 hc with rfl | hc
        · exact hia
        · exact Nat.lt_trans hia (hlt c hc)
    · split
      · next hia =>
        subst hia
        split
        · exact hm
        · next hv => exact (Memory.wf_cons _ _ _).2 ⟨hi, hv, hlt, hm⟩
      · refine (Memory.wf_cons _ _ _).2 ⟨ha, hu, fun c hc => ?_, ih hm⟩
        rcases Memory.mem_write hc with hc | hc
        · omega
        · exact hlt c hc

theorem Memory.wf_iff (m : Memory) :
    Memory.wf m = true ↔
      (∀ c ∈ m, c.1 < 256 ∧ c.2 ≠ unlistedCoef) ∧ m.Pairwise (fun a b => a.1 < b.1) := by
  induction m with
  | nil => simp [Memory.wf]
  | cons c m ih =>
    obtain ⟨a, v⟩ := c
    rw [Memory.wf_cons, ih, List.pairwise_cons]
    constructor
    · rintro ⟨ha, hv, hlt, hall, hp⟩
      exact ⟨List.forall_mem_cons.2 ⟨⟨ha, hv⟩, hall⟩, hlt, hp⟩
    · rintro ⟨hall, hlt, hp⟩
      obtain ⟨⟨ha, hv⟩, hall⟩ := List.forall_mem_cons.1 hall
      exact ⟨ha, hv, hlt, hall, hp⟩

/-- The space made of a function has the canonical form. -/
theorem Memory.wf_ofFn (f : Nat → Coef) : Memory.wf (Memory.ofFn f) = true := by
  rw [Memory.wf_iff]
  constructor
  · intro c hc
    simp only [Memory.ofFn, List.mem_filter, List.mem_map, List.mem_range, decide_eq_true_eq] at hc
    obtain ⟨⟨i, hi, rfl⟩, hv⟩ := hc
    exact ⟨hi, hv⟩
  · unfold Memory.ofFn
    refine List.Pairwise.filter _ (List.pairwise_map.2 ?_)
    exact List.pairwise_lt_range

end Sys2Proof.Machine
end

