-- ==== Sys2Proof/Laws/State.lean ====
section
/-! SUPPORT. What each update of the state does to each field, so that no proof unfolds a record update. -/

namespace Sys2Proof.Machine

/-! `State.moveTo` -/

@[simp] theorem State.moveTo_cfg (st : SeqStep) (s : State) : (s.moveTo st).cfg = s.cfg := rfl
@[simp] theorem State.moveTo_channel (st : SeqStep) (s : State) : (s.moveTo st).channel = s.channel := rfl
@[simp] theorem State.moveTo_ports (st : SeqStep) (s : State) : (s.moveTo st).ports = s.ports := rfl
@[simp] theorem State.moveTo_node (st : SeqStep) (s : State) : (s.moveTo st).node = s.node := rfl
@[simp] theorem State.moveTo_idx (st : SeqStep) (s : State) : (s.moveTo st).idx = s.idx := rfl
@[simp] theorem State.moveTo_mask (st : SeqStep) (s : State) : (s.moveTo st).mask = s.mask := rfl
@[simp] theorem State.moveTo_val (st : SeqStep) (s : State) : (s.moveTo st).val = s.val := rfl
@[simp] theorem State.moveTo_cur (st : SeqStep) (s : State) : (s.moveTo st).cur = s.cur := rfl
@[simp] theorem State.moveTo_new (st : SeqStep) (s : State) : (s.moveTo st).new = s.new := rfl
@[simp] theorem State.moveTo_stepReg (st : SeqStep) (s : State) : (s.moveTo st).stepReg = st := rfl
@[simp] theorem State.moveTo_done (st : SeqStep) (s : State) : (s.moveTo st).done = s.done := rfl
@[simp] theorem State.moveTo_status (st : SeqStep) (s : State) : (s.moveTo st).status = s.status := rfl
@[simp] theorem State.moveTo_result (st : SeqStep) (s : State) : (s.moveTo st).result = s.result := rfl
@[simp] theorem State.moveTo_responder (st : SeqStep) (s : State) : (s.moveTo st).responder = s.responder := rfl
@[simp] theorem State.moveTo_replaced (st : SeqStep) (s : State) : (s.moveTo st).replaced = s.replaced := rfl
@[simp] theorem State.moveTo_history (st : SeqStep) (s : State) : (s.moveTo st).history = s.history := rfl
@[simp] theorem State.moveTo_requests (st : SeqStep) (s : State) : (s.moveTo st).requests = s.requests := rfl
@[simp] theorem State.moveTo_draws (st : SeqStep) (s : State) : (s.moveTo st).draws = s.draws := rfl

/-! `State.latch` -/

@[simp] theorem State.latch_cfg (n : NodeId) (i : Index) (m v : Coef) (s : State) : (s.latch n i m v).cfg = s.cfg := rfl
@[simp] theorem State.latch_channel (n : NodeId) (i : Index) (m v : Coef) (s : State) : (s.latch n i m v).channel = s.channel := rfl
@[simp] theorem State.latch_ports (n : NodeId) (i : Index) (m v : Coef) (s : State) : (s.latch n i m v).ports = s.ports := rfl
@[simp] theorem State.latch_node (n : NodeId) (i : Index) (m v : Coef) (s : State) : (s.latch n i m v).node = n := rfl
@[simp] theorem State.latch_idx (n : NodeId) (i : Index) (m v : Coef) (s : State) : (s.latch n i m v).idx = i := rfl
@[simp] theorem State.latch_mask (n : NodeId) (i : Index) (m v : Coef) (s : State) : (s.latch n i m v).mask = m := rfl
@[simp] theorem State.latch_val (n : NodeId) (i : Index) (m v : Coef) (s : State) : (s.latch n i m v).val = v := rfl
@[simp] theorem State.latch_cur (n : NodeId) (i : Index) (m v : Coef) (s : State) : (s.latch n i m v).cur = s.cur := rfl
@[simp] theorem State.latch_new (n : NodeId) (i : Index) (m v : Coef) (s : State) : (s.latch n i m v).new = s.new := rfl
@[simp] theorem State.latch_stepReg (n : NodeId) (i : Index) (m v : Coef) (s : State) : (s.latch n i m v).stepReg = .sel1 := rfl
@[simp] theorem State.latch_done (n : NodeId) (i : Index) (m v : Coef) (s : State) : (s.latch n i m v).done = false := rfl
@[simp] theorem State.latch_status (n : NodeId) (i : Index) (m v : Coef) (s : State) : (s.latch n i m v).status = startedStatus s := rfl
@[simp] theorem State.latch_result (n : NodeId) (i : Index) (m v : Coef) (s : State) : (s.latch n i m v).result = startedResult s := rfl
@[simp] theorem State.latch_responder (n : NodeId) (i : Index) (m v : Coef) (s : State) : (s.latch n i m v).responder = s.responder := rfl
@[simp] theorem State.latch_replaced (n : NodeId) (i : Index) (m v : Coef) (s : State) : (s.latch n i m v).replaced = s.replaced := rfl
@[simp] theorem State.latch_history (n : NodeId) (i : Index) (m v : Coef) (s : State) : (s.latch n i m v).history = s.history := rfl
@[simp] theorem State.latch_requests (n : NodeId) (i : Index) (m v : Coef) (s : State) : (s.latch n i m v).requests = s.requests := rfl
@[simp] theorem State.latch_draws (n : NodeId) (i : Index) (m v : Coef) (s : State) : (s.latch n i m v).draws = s.draws + 1 := rfl

/-! `State.setWork` -/

@[simp] theorem State.setWork_cfg (c n : Coef) (s : State) : (s.setWork c n).cfg = s.cfg := rfl
@[simp] theorem State.setWork_channel (c n : Coef) (s : State) : (s.setWork c n).channel = s.channel := rfl
@[simp] theorem State.setWork_ports (c n : Coef) (s : State) : (s.setWork c n).ports = s.ports := rfl
@[simp] theorem State.setWork_node (c n : Coef) (s : State) : (s.setWork c n).node = s.node := rfl
@[simp] theorem State.setWork_idx (c n : Coef) (s : State) : (s.setWork c n).idx = s.idx := rfl
@[simp] theorem State.setWork_mask (c n : Coef) (s : State) : (s.setWork c n).mask = s.mask := rfl
@[simp] theorem State.setWork_val (c n : Coef) (s : State) : (s.setWork c n).val = s.val := rfl
@[simp] theorem State.setWork_cur (c n : Coef) (s : State) : (s.setWork c n).cur = c := rfl
@[simp] theorem State.setWork_new (c n : Coef) (s : State) : (s.setWork c n).new = n := rfl
@[simp] theorem State.setWork_stepReg (c n : Coef) (s : State) : (s.setWork c n).stepReg = s.stepReg := rfl
@[simp] theorem State.setWork_done (c n : Coef) (s : State) : (s.setWork c n).done = s.done := rfl
@[simp] theorem State.setWork_status (c n : Coef) (s : State) : (s.setWork c n).status = s.status := rfl
@[simp] theorem State.setWork_result (c n : Coef) (s : State) : (s.setWork c n).result = s.result := rfl
@[simp] theorem State.setWork_responder (c n : Coef) (s : State) : (s.setWork c n).responder = s.responder := rfl
@[simp] theorem State.setWork_replaced (c n : Coef) (s : State) : (s.setWork c n).replaced = s.replaced := rfl
@[simp] theorem State.setWork_history (c n : Coef) (s : State) : (s.setWork c n).history = s.history := rfl
@[simp] theorem State.setWork_requests (c n : Coef) (s : State) : (s.setWork c n).requests = s.requests := rfl
@[simp] theorem State.setWork_draws (c n : Coef) (s : State) : (s.setWork c n).draws = s.draws := rfl

/-! `State.finish` -/

@[simp] theorem State.finish_cfg (st : Status) (r : Coef) (s : State) : (s.finish st r).cfg = s.cfg := rfl
@[simp] theorem State.finish_channel (st : Status) (r : Coef) (s : State) : (s.finish st r).channel = s.channel := rfl
@[simp] theorem State.finish_ports (st : Status) (r : Coef) (s : State) : (s.finish st r).ports = s.ports := rfl
@[simp] theorem State.finish_node (st : Status) (r : Coef) (s : State) : (s.finish st r).node = s.node := rfl
@[simp] theorem State.finish_idx (st : Status) (r : Coef) (s : State) : (s.finish st r).idx = s.idx := rfl
@[simp] theorem State.finish_mask (st : Status) (r : Coef) (s : State) : (s.finish st r).mask = s.mask := rfl
@[simp] theorem State.finish_val (st : Status) (r : Coef) (s : State) : (s.finish st r).val = s.val := rfl
@[simp] theorem State.finish_cur (st : Status) (r : Coef) (s : State) : (s.finish st r).cur = s.cur := rfl
@[simp] theorem State.finish_new (st : Status) (r : Coef) (s : State) : (s.finish st r).new = s.new := rfl
@[simp] theorem State.finish_stepReg (st : Status) (r : Coef) (s : State) : (s.finish st r).stepReg = .idle := rfl
@[simp] theorem State.finish_done (st : Status) (r : Coef) (s : State) : (s.finish st r).done = true := rfl
@[simp] theorem State.finish_status (st : Status) (r : Coef) (s : State) : (s.finish st r).status = st := rfl
@[simp] theorem State.finish_result (st : Status) (r : Coef) (s : State) : (s.finish st r).result = r := rfl
@[simp] theorem State.finish_responder (st : Status) (r : Coef) (s : State) : (s.finish st r).responder = s.responder := rfl
@[simp] theorem State.finish_replaced (st : Status) (r : Coef) (s : State) : (s.finish st r).replaced = s.replaced := rfl
@[simp] theorem State.finish_history (st : Status) (r : Coef) (s : State) : (s.finish st r).history = s.history := rfl
@[simp] theorem State.finish_requests (st : Status) (r : Coef) (s : State) : (s.finish st r).requests = s.requests := rfl
@[simp] theorem State.finish_draws (st : Status) (r : Coef) (s : State) : (s.finish st r).draws = s.draws := rfl

/-! `State.setResponder` -/

@[simp] theorem State.setResponder_cfg (r : Responder) (s : State) : (s.setResponder r).cfg = s.cfg := rfl
@[simp] theorem State.setResponder_channel (r : Responder) (s : State) : (s.setResponder r).channel = s.channel := rfl
@[simp] theorem State.setResponder_ports (r : Responder) (s : State) : (s.setResponder r).ports = s.ports := rfl
@[simp] theorem State.setResponder_node (r : Responder) (s : State) : (s.setResponder r).node = s.node := rfl
@[simp] theorem State.setResponder_idx (r : Responder) (s : State) : (s.setResponder r).idx = s.idx := rfl
@[simp] theorem State.setResponder_mask (r : Responder) (s : State) : (s.setResponder r).mask = s.mask := rfl
@[simp] theorem State.setResponder_val (r : Responder) (s : State) : (s.setResponder r).val = s.val := rfl
@[simp] theorem State.setResponder_cur (r : Responder) (s : State) : (s.setResponder r).cur = s.cur := rfl
@[simp] theorem State.setResponder_new (r : Responder) (s : State) : (s.setResponder r).new = s.new := rfl
@[simp] theorem State.setResponder_stepReg (r : Responder) (s : State) : (s.setResponder r).stepReg = s.stepReg := rfl
@[simp] theorem State.setResponder_done (r : Responder) (s : State) : (s.setResponder r).done = s.done := rfl
@[simp] theorem State.setResponder_status (r : Responder) (s : State) : (s.setResponder r).status = s.status := rfl
@[simp] theorem State.setResponder_result (r : Responder) (s : State) : (s.setResponder r).result = s.result := rfl
@[simp] theorem State.setResponder_responder (r : Responder) (s : State) : (s.setResponder r).responder = r := rfl
@[simp] theorem State.setResponder_replaced (r : Responder) (s : State) : (s.setResponder r).replaced = s.replaced := rfl
@[simp] theorem State.setResponder_history (r : Responder) (s : State) : (s.setResponder r).history = s.history := rfl
@[simp] theorem State.setResponder_requests (r : Responder) (s : State) : (s.setResponder r).requests = s.requests := rfl
@[simp] theorem State.setResponder_draws (r : Responder) (s : State) : (s.setResponder r).draws = s.draws := rfl

/-! `State.record` -/

@[simp] theorem State.record_cfg (w : Word) (a : Answer) (s : State) : (s.record w a).cfg = s.cfg := rfl
@[simp] theorem State.record_channel (w : Word) (a : Answer) (s : State) : (s.record w a).channel = s.channel := rfl
@[simp] theorem State.record_ports (w : Word) (a : Answer) (s : State) : (s.record w a).ports = s.ports := rfl
@[simp] theorem State.record_node (w : Word) (a : Answer) (s : State) : (s.record w a).node = s.node := rfl
@[simp] theorem State.record_idx (w : Word) (a : Answer) (s : State) : (s.record w a).idx = s.idx := rfl
@[simp] theorem State.record_mask (w : Word) (a : Answer) (s : State) : (s.record w a).mask = s.mask := rfl
@[simp] theorem State.record_val (w : Word) (a : Answer) (s : State) : (s.record w a).val = s.val := rfl
@[simp] theorem State.record_cur (w : Word) (a : Answer) (s : State) : (s.record w a).cur = s.cur := rfl
@[simp] theorem State.record_new (w : Word) (a : Answer) (s : State) : (s.record w a).new = s.new := rfl
@[simp] theorem State.record_stepReg (w : Word) (a : Answer) (s : State) : (s.record w a).stepReg = s.stepReg := rfl
@[simp] theorem State.record_done (w : Word) (a : Answer) (s : State) : (s.record w a).done = s.done := rfl
@[simp] theorem State.record_status (w : Word) (a : Answer) (s : State) : (s.record w a).status = s.status := rfl
@[simp] theorem State.record_result (w : Word) (a : Answer) (s : State) : (s.record w a).result = s.result := rfl
@[simp] theorem State.record_responder (w : Word) (a : Answer) (s : State) : (s.record w a).responder = s.responder := rfl
@[simp] theorem State.record_replaced (w : Word) (a : Answer) (s : State) : (s.record w a).replaced = s.replaced := rfl
@[simp] theorem State.record_history (w : Word) (a : Answer) (s : State) : (s.record w a).history = ⟨w, a⟩ :: s.history := rfl
@[simp] theorem State.record_requests (w : Word) (a : Answer) (s : State) : (s.record w a).requests = s.requests := rfl
@[simp] theorem State.record_draws (w : Word) (a : Answer) (s : State) : (s.record w a).draws = s.draws + 1 := rfl

/-! `State.dropReplaced` -/

@[simp] theorem State.dropReplaced_cfg (s : State) : s.dropReplaced.cfg = s.cfg := rfl
@[simp] theorem State.dropReplaced_channel (s : State) : s.dropReplaced.channel = s.channel := rfl
@[simp] theorem State.dropReplaced_ports (s : State) : s.dropReplaced.ports = s.ports := rfl
@[simp] theorem State.dropReplaced_node (s : State) : s.dropReplaced.node = s.node := rfl
@[simp] theorem State.dropReplaced_idx (s : State) : s.dropReplaced.idx = s.idx := rfl
@[simp] theorem State.dropReplaced_mask (s : State) : s.dropReplaced.mask = s.mask := rfl
@[simp] theorem State.dropReplaced_val (s : State) : s.dropReplaced.val = s.val := rfl
@[simp] theorem State.dropReplaced_cur (s : State) : s.dropReplaced.cur = s.cur := rfl
@[simp] theorem State.dropReplaced_new (s : State) : s.dropReplaced.new = s.new := rfl
@[simp] theorem State.dropReplaced_stepReg (s : State) : s.dropReplaced.stepReg = s.stepReg := rfl
@[simp] theorem State.dropReplaced_done (s : State) : s.dropReplaced.done = s.done := rfl
@[simp] theorem State.dropReplaced_status (s : State) : s.dropReplaced.status = s.status := rfl
@[simp] theorem State.dropReplaced_result (s : State) : s.dropReplaced.result = s.result := rfl
@[simp] theorem State.dropReplaced_responder (s : State) : s.dropReplaced.responder = s.responder := rfl
@[simp] theorem State.dropReplaced_replaced (s : State) : s.dropReplaced.replaced = s.replaced.tail := rfl
@[simp] theorem State.dropReplaced_history (s : State) : s.dropReplaced.history = s.history := rfl
@[simp] theorem State.dropReplaced_requests (s : State) : s.dropReplaced.requests = s.requests := rfl
@[simp] theorem State.dropReplaced_draws (s : State) : s.dropReplaced.draws = s.draws := rfl

/-! `State.nextDraw` -/

@[simp] theorem State.nextDraw_cfg (s : State) : s.nextDraw.cfg = s.cfg := rfl
@[simp] theorem State.nextDraw_channel (s : State) : s.nextDraw.channel = s.channel := rfl
@[simp] theorem State.nextDraw_ports (s : State) : s.nextDraw.ports = s.ports := rfl
@[simp] theorem State.nextDraw_node (s : State) : s.nextDraw.node = s.node := rfl
@[simp] theorem State.nextDraw_idx (s : State) : s.nextDraw.idx = s.idx := rfl
@[simp] theorem State.nextDraw_mask (s : State) : s.nextDraw.mask = s.mask := rfl
@[simp] theorem State.nextDraw_val (s : State) : s.nextDraw.val = s.val := rfl
@[simp] theorem State.nextDraw_cur (s : State) : s.nextDraw.cur = s.cur := rfl
@[simp] theorem State.nextDraw_new (s : State) : s.nextDraw.new = s.new := rfl
@[simp] theorem State.nextDraw_stepReg (s : State) : s.nextDraw.stepReg = s.stepReg := rfl
@[simp] theorem State.nextDraw_done (s : State) : s.nextDraw.done = s.done := rfl
@[simp] theorem State.nextDraw_status (s : State) : s.nextDraw.status = s.status := rfl
@[simp] theorem State.nextDraw_result (s : State) : s.nextDraw.result = s.result := rfl
@[simp] theorem State.nextDraw_responder (s : State) : s.nextDraw.responder = s.responder := rfl
@[simp] theorem State.nextDraw_replaced (s : State) : s.nextDraw.replaced = s.replaced := rfl
@[simp] theorem State.nextDraw_history (s : State) : s.nextDraw.history = s.history := rfl
@[simp] theorem State.nextDraw_requests (s : State) : s.nextDraw.requests = s.requests := rfl
@[simp] theorem State.nextDraw_draws (s : State) : s.nextDraw.draws = s.draws + 1 := rfl

/-! `State.drive` -/

@[simp] theorem State.drive_cfg (p : Ports) (s : State) : (s.drive p).cfg = s.cfg := rfl
@[simp] theorem State.drive_channel (p : Ports) (s : State) : (s.drive p).channel = s.channel := rfl
@[simp] theorem State.drive_ports (p : Ports) (s : State) : (s.drive p).ports = p := rfl
@[simp] theorem State.drive_node (p : Ports) (s : State) : (s.drive p).node = s.node := rfl
@[simp] theorem State.drive_idx (p : Ports) (s : State) : (s.drive p).idx = s.idx := rfl
@[simp] theorem State.drive_mask (p : Ports) (s : State) : (s.drive p).mask = s.mask := rfl
@[simp] theorem State.drive_val (p : Ports) (s : State) : (s.drive p).val = s.val := rfl
@[simp] theorem State.drive_cur (p : Ports) (s : State) : (s.drive p).cur = s.cur := rfl
@[simp] theorem State.drive_new (p : Ports) (s : State) : (s.drive p).new = s.new := rfl
@[simp] theorem State.drive_stepReg (p : Ports) (s : State) : (s.drive p).stepReg = s.stepReg := rfl
@[simp] theorem State.drive_done (p : Ports) (s : State) : (s.drive p).done = s.done := rfl
@[simp] theorem State.drive_status (p : Ports) (s : State) : (s.drive p).status = s.status := rfl
@[simp] theorem State.drive_result (p : Ports) (s : State) : (s.drive p).result = s.result := rfl
@[simp] theorem State.drive_responder (p : Ports) (s : State) : (s.drive p).responder = s.responder := rfl
@[simp] theorem State.drive_replaced (p : Ports) (s : State) : (s.drive p).replaced = s.replaced := rfl
@[simp] theorem State.drive_history (p : Ports) (s : State) : (s.drive p).history = s.history := rfl
@[simp] theorem State.drive_requests (p : Ports) (s : State) : (s.drive p).requests = s.requests := rfl
@[simp] theorem State.drive_draws (p : Ports) (s : State) : (s.drive p).draws = s.draws := rfl

/-! `State.setRequests` -/

@[simp] theorem State.setRequests_cfg (rs : List Request) (s : State) : (s.setRequests rs).cfg = s.cfg := rfl
@[simp] theorem State.setRequests_channel (rs : List Request) (s : State) : (s.setRequests rs).channel = s.channel := rfl
@[simp] theorem State.setRequests_ports (rs : List Request) (s : State) : (s.setRequests rs).ports = s.ports := rfl
@[simp] theorem State.setRequests_node (rs : List Request) (s : State) : (s.setRequests rs).node = s.node := rfl
@[simp] theorem State.setRequests_idx (rs : List Request) (s : State) : (s.setRequests rs).idx = s.idx := rfl
@[simp] theorem State.setRequests_mask (rs : List Request) (s : State) : (s.setRequests rs).mask = s.mask := rfl
@[simp] theorem State.setRequests_val (rs : List Request) (s : State) : (s.setRequests rs).val = s.val := rfl
@[simp] theorem State.setRequests_cur (rs : List Request) (s : State) : (s.setRequests rs).cur = s.cur := rfl
@[simp] theorem State.setRequests_new (rs : List Request) (s : State) : (s.setRequests rs).new = s.new := rfl
@[simp] theorem State.setRequests_stepReg (rs : List Request) (s : State) : (s.setRequests rs).stepReg = s.stepReg := rfl
@[simp] theorem State.setRequests_done (rs : List Request) (s : State) : (s.setRequests rs).done = s.done := rfl
@[simp] theorem State.setRequests_status (rs : List Request) (s : State) : (s.setRequests rs).status = s.status := rfl
@[simp] theorem State.setRequests_result (rs : List Request) (s : State) : (s.setRequests rs).result = s.result := rfl
@[simp] theorem State.setRequests_responder (rs : List Request) (s : State) : (s.setRequests rs).responder = s.responder := rfl
@[simp] theorem State.setRequests_replaced (rs : List Request) (s : State) : (s.setRequests rs).replaced = s.replaced := rfl
@[simp] theorem State.setRequests_history (rs : List Request) (s : State) : (s.setRequests rs).history = s.history := rfl
@[simp] theorem State.setRequests_requests (rs : List Request) (s : State) : (s.setRequests rs).requests = rs := rfl
@[simp] theorem State.setRequests_draws (rs : List Request) (s : State) : (s.setRequests rs).draws = s.draws := rfl

/-! `State.setChannel` -/

@[simp] theorem State.setChannel_cfg (c : Channel) (s : State) : (s.setChannel c).cfg = s.cfg := rfl
@[simp] theorem State.setChannel_channel (c : Channel) (s : State) : (s.setChannel c).channel = c := rfl
@[simp] theorem State.setChannel_ports (c : Channel) (s : State) : (s.setChannel c).ports = s.ports := rfl
@[simp] theorem State.setChannel_node (c : Channel) (s : State) : (s.setChannel c).node = s.node := rfl
@[simp] theorem State.setChannel_idx (c : Channel) (s : State) : (s.setChannel c).idx = s.idx := rfl
@[simp] theorem State.setChannel_mask (c : Channel) (s : State) : (s.setChannel c).mask = s.mask := rfl
@[simp] theorem State.setChannel_val (c : Channel) (s : State) : (s.setChannel c).val = s.val := rfl
@[simp] theorem State.setChannel_cur (c : Channel) (s : State) : (s.setChannel c).cur = s.cur := rfl
@[simp] theorem State.setChannel_new (c : Channel) (s : State) : (s.setChannel c).new = s.new := rfl
@[simp] theorem State.setChannel_stepReg (c : Channel) (s : State) : (s.setChannel c).stepReg = s.stepReg := rfl
@[simp] theorem State.setChannel_done (c : Channel) (s : State) : (s.setChannel c).done = s.done := rfl
@[simp] theorem State.setChannel_status (c : Channel) (s : State) : (s.setChannel c).status = s.status := rfl
@[simp] theorem State.setChannel_result (c : Channel) (s : State) : (s.setChannel c).result = s.result := rfl
@[simp] theorem State.setChannel_responder (c : Channel) (s : State) : (s.setChannel c).responder = s.responder := rfl
@[simp] theorem State.setChannel_replaced (c : Channel) (s : State) : (s.setChannel c).replaced = s.replaced := rfl
@[simp] theorem State.setChannel_history (c : Channel) (s : State) : (s.setChannel c).history = s.history := rfl
@[simp] theorem State.setChannel_requests (c : Channel) (s : State) : (s.setChannel c).requests = s.requests := rfl
@[simp] theorem State.setChannel_draws (c : Channel) (s : State) : (s.setChannel c).draws = s.draws := rfl

/-! `State.clearBlock` -/

@[simp] theorem State.clearBlock_cfg (s : State) : s.clearBlock.cfg = s.cfg := rfl
@[simp] theorem State.clearBlock_channel (s : State) : s.clearBlock.channel = s.channel := rfl
@[simp] theorem State.clearBlock_ports (s : State) : s.clearBlock.ports = s.ports := rfl
@[simp] theorem State.clearBlock_stepReg (s : State) : s.clearBlock.stepReg = .idle := rfl
@[simp] theorem State.clearBlock_done (s : State) : s.clearBlock.done = false := rfl
@[simp] theorem State.clearBlock_responder (s : State) : s.clearBlock.responder = s.responder := rfl
@[simp] theorem State.clearBlock_replaced (s : State) : s.clearBlock.replaced = s.replaced := rfl
@[simp] theorem State.clearBlock_history (s : State) : s.clearBlock.history = s.history := rfl
@[simp] theorem State.clearBlock_requests (s : State) : s.clearBlock.requests = s.requests := rfl
@[simp] theorem State.clearBlock_draws (s : State) : s.clearBlock.draws = s.draws + 1 := rfl

end Sys2Proof.Machine
end

