-- ==== Sys2Proof/Laws/Exchange.lean ====
section
/-! SUPPORT. What one exchange can do, said once: which fields it leaves alone, that it adds one entry to the history,
and that it keeps the coefficient space in its canonical form. -/

namespace Sys2Proof.Machine

theorem Memory.wf_deviceCoef (t : Nat) (w : Word) : Memory.wf (deviceCoef t w) = true := Memory.wf_ofFn _

theorem wf_referenceRespond (c : Params) (r : Responder) (w : Word) (h : Memory.wf r.coef = true) :
    Memory.wf (referenceRespond c r w).2.coef = true := by
  unfold referenceRespond
  split <;> try exact h
  exact Memory.wf_write _ _ _ (by simpa using r.cidx.isLt) h

theorem wf_replacedRespond (c : Params) (r : Responder) (w : Word) (a : Answer) (h : Memory.wf r.coef = true) :
    Memory.wf (replacedRespond c r w a).coef = true := by
  unfold replacedRespond
  split
  · exact h
  · split
    · exact wf_referenceRespond c r w h
    · exact h

/-- The word of a select for any node, as R90 gives it, binds a far end as R95 recognises it. -/
theorem recogniseExact_select {c : Params} {n : NodeId} {i : Index}
    (h : dec c (selectWord c n i) true = ⟨n, c.verbSel, 0#8 ++ i⟩) :
    recogniseExact c (selectWord c n i) = recognise c (selectWord c n i) := by
  have hi : (0#8 ++ i).setWidth 8 = i := by
    rw [BitVec.setWidth_append]; simp
  simp only [recogniseExact, h, hi, true_or, if_true]

/-- The word of a read for any node, as R91 gives it, binds a far end as R95 recognises it. -/
theorem recogniseExact_read {c : Params} {n : NodeId} (h : (dec c (readWord c n) true).node = n) :
    recogniseExact c (readWord c n) = recognise c (readWord c n) := by
  simp only [recogniseExact, h, true_or, or_true, if_true]

/-- A word with an uncovered bit set binds a far end to nothing (91_not_in_source.md N16). -/
theorem recogniseExact_uncovered {c : Params} {w : Word} (h : w &&& c.zeroMask ≠ 0#32) :
    recogniseExact c w = .other := by
  refine if_neg ?_
  rintro (hw | hw | hw) <;> rw [hw] at h <;> exact h (enc_uncovered _ _ _ _ _)

theorem wf_deviceRespond (c : Params) (p : Responder) (t : Nat) (w : Word) :
    Memory.wf (deviceRespond c p t w).2.coef = true := by
  unfold deviceRespond
  split <;> exact Memory.wf_deviceCoef t w

/-- An exchange is the far end's new state, one entry of the fault injection used up or none, and one entry of the
history. -/
theorem exchange_shape {s t : State} {w : Word} {a : Answer} (h : exchange s w = some (a, t)) :
    ∃ r rs, t = { s with responder := r, replaced := rs, history := ⟨w, a⟩ :: s.history, draws := s.draws + 1 } ∧
      (Memory.wf s.responder.coef = true → Memory.wf r.coef = true) := by
  unfold exchange at h
  split at h
  · simp at h
  · simp only [closedExchange, Option.some.injEq] at h
    split at h <;> obtain ⟨rfl, rfl⟩ := Prod.mk.inj h
    · exact ⟨_, _, rfl, id⟩
    · exact ⟨_, _, rfl, fun _ => Memory.wf_deviceCoef _ _⟩
  · split at h
    · simp only [referenceExchange, Option.some.injEq] at h
      split at h <;> obtain ⟨rfl, rfl⟩ := Prod.mk.inj h
      · exact ⟨_, _, rfl, wf_replacedRespond _ _ _ _⟩
      · exact ⟨_, _, rfl, wf_referenceRespond _ _ _⟩
    · simp only [deviceExchange, Option.some.injEq] at h
      obtain ⟨rfl, rfl⟩ := Prod.mk.inj h
      exact ⟨_, _, rfl, fun _ => wf_deviceRespond _ _ _ _⟩

/-- An exchange changes no register of the block. -/
theorem exchange_sameBlock {s t : State} {w : Word} {a : Answer} (h : exchange s w = some (a, t)) : SameBlock s t := by
  obtain ⟨r, rs, rfl, _⟩ := exchange_shape h
  simp [SameBlock]

theorem exchange_history {s t : State} {w : Word} {a : Answer} (h : exchange s w = some (a, t)) :
    t.history = ⟨w, a⟩ :: s.history := by
  obtain ⟨r, rs, rfl, _⟩ := exchange_shape h
  rfl

theorem exchange_wf {s t : State} {w : Word} {a : Answer} (h : exchange s w = some (a, t))
    (hm : Memory.wf s.responder.coef = true) : Memory.wf t.responder.coef = true := by
  obtain ⟨r, rs, rfl, hr⟩ := exchange_shape h
  exact hr hm

/-- Every exchange is answered, but on a channel that never answers. -/
theorem exchange_isSome (s : State) (w : Word) : (exchange s w).isSome = true ↔ s.channel ≠ .hung := by
  unfold exchange
  cases s.channel <;> cases s.cfg.farEnd <;> simp

/-- What sending a verb can do: a fault on a channel that never answers, else one exchange. -/
theorem sendVerb_cases (w : Word) (s : State) :
    (exchange s w = none ∧ sendVerb w s = .fault .channelNeverAnswers) ∨
    (∃ a t, exchange s w = some (a, t) ∧ sendVerb w s = .next t) := by
  unfold sendVerb
  cases h : exchange s w with
  | none => exact .inl ⟨rfl, rfl⟩
  | some p => exact .inr ⟨p.1, p.2, rfl, rfl⟩

end Sys2Proof.Machine
end

