-- ==== Sys2Proof/Laws/PerInstr.lean ====
section
/-! SUPPORT. The family UncoveredBits: the word the table's encoder gives an instruction has every uncovered bit zero
(30_encoding.md R54, R59), so its row of the table matches it. -/

namespace Sys2Proof.Laws.UncoveredBits

/-- Every encoding of the instruction has its uncovered bits zero, whatever the parameters. -/
def Statement (i : Instr) : Prop := ∀ (c : Params) (v : VerbWord), encode c i = some v → v.word &&& c.zeroMask = 0#32

theorem verbS (node : NodeId) (verb : VerbId) (payload : BitVec 8) : Statement (.verbS node verb payload) := by
  rintro c v ⟨⟩
  exact enc_uncovered _ _ _ _ _

theorem verbL (node : NodeId) (verb : VerbId) (payload : BitVec 16) : Statement (.verbL node verb payload) := by
  rintro c v ⟨⟩
  exact enc_uncovered _ _ _ _ _

theorem coefSelect (node : NodeId) (index : Index) : Statement (.coefSelect node index) := by
  rintro c v ⟨⟩
  exact enc_uncovered _ _ _ _ _

theorem coefRead (node : NodeId) : Statement (.coefRead node) := by
  rintro c v ⟨⟩
  exact enc_uncovered _ _ _ _ _

theorem coefWrite (node : NodeId) (data : Coef) : Statement (.coefWrite node data) := by
  rintro c v ⟨⟩
  exact enc_uncovered _ _ _ _ _

theorem encode (node verb payload : BitVec 32) (wide : Bool) : Statement (.encode node verb payload wide) := by
  rintro c v ⟨⟩

theorem decode (word : Word) (wide : Bool) : Statement (.decode word wide) := by
  rintro c v ⟨⟩

theorem update (node index mask value : BitVec 32) : Statement (.update node index mask value) := by
  rintro c v ⟨⟩

end Sys2Proof.Laws.UncoveredBits
end

