-- ==== Sys2Proof/Laws/Sequencer.lean ====
section
/-! SUPPORT. What the sequencer can do with an answer, and what one of its steps can do. -/

namespace Sys2Proof.Machine

@[simp] theorem raiseFailure_eq (f : Failure) (s : State) :
    raiseFailure f s = { s with result := Config.drawRegister s.draws 6, status := f.status, done := true,
                                stepReg := .idle, draws := s.draws + 1 } := rfl

/-! The answers of a select or a write, of the first read and of the second, one lemma per outcome. -/

theorem acknowledge_ok {r : Word} (h : r = respOk) (n : SeqStep) (s : State) : acknowledge r n s = s.moveTo n :=
  if_pos h

theorem acknowledge_rejected {r : Word} (h : r ≠ respOk) (n : SeqStep) (s : State) :
    acknowledge r n s = raiseFailure .writeRejected s :=
  if_neg h

theorem firstRead_invalid {r : Word} (h : r = respInvalid) (s : State) : firstRead r s = raiseFailure .readInvalid s :=
  if_pos h

theorem firstRead_skip {r : Word} (h : r ≠ respInvalid) {s : State} (hm : merge (coefOf r) s.mask s.val = coefOf r) :
    firstRead r s = (s.setWork (coefOf r) (coefOf r)).finish .ok (coefOf r) := by
  simp [firstRead, h, hm]

theorem firstRead_write {r : Word} (h : r ≠ respInvalid) {s : State} (hm : merge (coefOf r) s.mask s.val ≠ coefOf r) :
    firstRead r s = (s.setWork (coefOf r) (merge (coefOf r) s.mask s.val)).moveTo .sel2 := by
  simp [firstRead, h, hm]

theorem readBack_invalid {r : Word} (h : r = respInvalid) (s : State) : readBack r s = raiseFailure .readInvalid s :=
  if_pos h

theorem readBack_ok {r : Word} (h : r ≠ respInvalid) (s : State) : readBack r s = s.finish .ok (coefOf r) :=
  if_neg h

/-- Examining an answer changes STEP, the outcome, CUR and NEW, and the draw counter, and nothing else. -/
theorem examine_shape (a : Answer) (s : State) :
    ∃ c n st d q r k, examine a s =
      { s with cur := c, new := n, stepReg := st, done := d, status := q, result := r, draws := k } := by
  rcases a with r | _
  · simp only [examine]
    split
    · exact ⟨_, _, _, _, _, _, _, rfl⟩
    · unfold acknowledge; split <;> exact ⟨_, _, _, _, _, _, _, rfl⟩
    · unfold firstRead
      split
      · exact ⟨_, _, _, _, _, _, _, rfl⟩
      · dsimp only
        split <;> exact ⟨_, _, _, _, _, _, _, rfl⟩
    · unfold acknowledge; split <;> exact ⟨_, _, _, _, _, _, _, rfl⟩
    · unfold acknowledge; split <;> exact ⟨_, _, _, _, _, _, _, rfl⟩
    · unfold acknowledge; split <;> exact ⟨_, _, _, _, _, _, _, rfl⟩
    · unfold readBack; split <;> exact ⟨_, _, _, _, _, _, _, rfl⟩
  · exact ⟨_, _, _, _, _, _, _, rfl⟩

@[simp] theorem examine_cfg (a : Answer) (s : State) : (examine a s).cfg = s.cfg := by
  obtain ⟨_, _, _, _, _, _, _, h⟩ := examine_shape a s
  rw [h]

@[simp] theorem examine_responder (a : Answer) (s : State) : (examine a s).responder = s.responder := by
  obtain ⟨_, _, _, _, _, _, _, h⟩ := examine_shape a s
  rw [h]

@[simp] theorem examine_history (a : Answer) (s : State) : (examine a s).history = s.history := by
  obtain ⟨_, _, _, _, _, _, _, h⟩ := examine_shape a s
  rw [h]

@[simp] theorem examine_requests (a : Answer) (s : State) : (examine a s).requests = s.requests := by
  obtain ⟨_, _, _, _, _, _, _, h⟩ := examine_shape a s
  rw [h]

/-- What a step of the sequencer can do: nothing in IDLE, a fault on a channel that never answers, else one exchange
of the command of the step, whose answer is examined. -/
theorem sequencerStep_cases (s : State) :
    (s.stepReg = .idle ∧ sequencerStep s = .next s) ∨
    (∃ w, s.chCmd = some w ∧
      ((exchange s w = none ∧ sequencerStep s = .fault .channelNeverAnswers) ∨
       (∃ a t, exchange s w = some (a, t) ∧ sequencerStep s = .next (examine a t)))) := by
  unfold sequencerStep
  cases hw : s.chCmd with
  | none =>
    refine .inl ⟨?_, rfl⟩
    unfold State.chCmd at hw
    split at hw <;> simp_all
  | some w =>
    refine .inr ⟨w, rfl, ?_⟩
    cases h : exchange s w with
    | none => exact .inl ⟨rfl, by simp [h]⟩
    | some p => exact .inr ⟨p.1, p.2, rfl, by simp [h]⟩

end Sys2Proof.Machine
end

