-- ==== Sys2Proof/Laws/Step.lean ====
section
/-! SUPPORT. What one step of the machine can do, said once. -/

namespace Sys2Proof.Machine

/-- Where `exec` gives a next state, it is one exchange, new values on the input ports, or the start of an UPDATE. -/
theorem exec_cases {i : Instr} {s t : State} (h : exec i s = .next t) :
    (∃ w a, exchange s w = some (a, t)) ∨ (∃ p, t = s.drive p) ∨
    (s.stepReg = .idle ∧ ∃ p n x m v, t = (s.drive p).latch n x m v) := by
  have verb : ∀ w, sendVerb w s = .next t → ∃ w a, exchange s w = some (a, t) := by
    intro w hw
    rcases sendVerb_cases w s with ⟨_, hf⟩ | ⟨a, u, he, hn⟩
    · rw [hf] at hw; cases hw
    · rw [hn] at hw; cases hw; exact ⟨w, a, he⟩
  cases i with
  | verbS _ _ _ => exact .inl (verb _ h)
  | verbL _ _ _ => exact .inl (verb _ h)
  | coefSelect _ _ => exact .inl (verb _ h)
  | coefRead _ => exact .inl (verb _ h)
  | coefWrite _ _ => exact .inl (verb _ h)
  | encode _ _ _ _ => cases h; exact .inr (.inl ⟨_, rfl⟩)
  | decode _ _ => cases h; exact .inr (.inl ⟨_, rfl⟩)
  | update _ _ _ _ =>
    simp only [exec, execUpdate] at h
    split at h
    · cases h; exact .inr (.inl ⟨_, rfl⟩)
    · next hb =>
      cases h
      refine .inr (.inr ⟨?_, _, _, _, _, _, rfl⟩)
      simpa [State.busy] using hb

/-- What a presented action can do. -/
theorem present_cases {a : Action} {s t : State} (h : present a s = .next t) :
    (∃ w b, exchange s w = some (b, t)) ∨ (∃ p, t = s.drive p) ∨
    (s.stepReg = .idle ∧ ∃ p n x m v, t = (s.drive p).latch n x m v) ∨
    (s.stepReg = .idle ∧ t = s.clearBlock) ∨ (∃ c, t = s.setChannel c) ∨ sequencerStep s = .next t := by
  have inst : ∀ i, exec i s = .next t →
      (∃ w b, exchange s w = some (b, t)) ∨ (∃ p, t = s.drive p) ∨
      (s.stepReg = .idle ∧ ∃ p n x m v, t = (s.drive p).latch n x m v) ∨
      (s.stepReg = .idle ∧ t = s.clearBlock) ∨ (∃ c, t = s.setChannel c) ∨ sequencerStep s = .next t := fun i hi => by
    rcases exec_cases hi with h | h | h
    · exact .inl h
    · exact .inr (.inl h)
    · exact .inr (.inr (.inl h))
  cases a with
  | op i => exact inst i h
  | word v =>
    simp only [present] at h
    split at h
    · exact inst _ h
    · rcases sendVerb_cases v.word s with ⟨_, hf⟩ | ⟨b, u, he, hn⟩
      · rw [hf] at h; cases h
      · rw [hn] at h; cases h; exact .inl ⟨_, _, he⟩
  | reset =>
    simp only [present, resetEvent] at h
    split at h
    · cases h
    · next hb =>
      cases h
      exact .inr (.inr (.inr (.inl ⟨by simpa [State.busy] using hb, rfl⟩)))
  | channel c => cases h; exact .inr (.inr (.inr (.inr (.inl ⟨c, rfl⟩))))
  | pass => exact .inr (.inr (.inr (.inr (.inr h))))

/-- What a step can do: a step of the sequencer, or the next request, which it takes off the list. -/
theorem step_cases (s : State) :
    ((s.requests = [] ∨ ∃ r rest, s.requests = r :: rest ∧ r.hold = true ∧ s.busy = true) ∧ step s = sequencerStep s) ∨
    (∃ r rest, s.requests = r :: rest ∧ (r.hold = false ∨ s.busy = false) ∧
      step s = present r.action (s.setRequests rest)) := by
  unfold step
  cases hr : s.requests with
  | nil => exact .inl ⟨.inl rfl, rfl⟩
  | cons r rest =>
    by_cases hb : r.hold = true ∧ s.busy = true
    · exact .inl ⟨.inr ⟨r, rest, rfl, hb⟩, by simp [hb]⟩
    · refine .inr ⟨r, rest, rfl, ?_, by simp [hb]⟩
      cases h1 : r.hold <;> cases h2 : s.busy <;> simp_all

end Sys2Proof.Machine
end

