-- ==== Sys2Proof/Tests/Slice0.lean ====
section
/-! SUPPORT. Tests on fixed values, whose expected results are those of spec/95_test_vectors.md or are read off the spec's
patterns by hand, and for every obligation with hypotheses one theorem that shows a state and operands meeting them. -/

namespace Sys2Proof.Tests

open Sys2Proof Sys2Proof.Machine

/-! ### WellFormed: every check refuses a term that fails it -/

/-- The parameters of the vectors with NODE_LSB = 24 (R53). -/
def high : Params := { Params.defaults with nodeLsb := 24 }

theorem test_wf_defaults : Params.defaults.wellFormed = true := by decide
theorem test_wf_nodeLsb_24 : high.wellFormed = true := by decide
theorem test_wf_nodeLsb_25 : ({ high with nodeLsb := 25 } : Params).wellFormed = true := by decide
theorem test_wf_nodeLsb_low : ({ high with nodeLsb := 19 } : Params).wellFormed = false := by decide
theorem test_wf_nodeLsb_high : ({ high with nodeLsb := 26 } : Params).wellFormed = false := by decide
theorem test_wf_sel_low_byte : ({ high with verbSel := 0x501 } : Params).wellFormed = false := by decide
theorem test_wf_rd_low_byte : ({ high with verbRd := 0xC80 } : Params).wellFormed = false := by decide
theorem test_wf_wr_low_byte : ({ high with verbWr := 0x410 } : Params).wellFormed = false := by decide
theorem test_wf_sel_is_rd : ({ high with verbSel := 0xC00 } : Params).wellFormed = false := by decide
theorem test_wf_sel_is_wr : ({ high with verbWr := 0x500 } : Params).wellFormed = false := by decide
theorem test_wf_rd_is_wr : ({ high with verbRd := 0x400 } : Params).wellFormed = false := by decide

theorem test_wf_verbL : Instr.wellFormed Params.defaults (.verbL 0x7F 0xF00 0xFFFF) = true := by decide
theorem test_wf_verbL_low_byte : Instr.wellFormed Params.defaults (.verbL 0x20 0x4AB 0x1234) = false := by decide
theorem test_wf_verbL_is_select : Instr.wellFormed Params.defaults (.verbL 0x20 0x500 0x004F) = false := by decide
theorem test_wf_verbL_is_read : Instr.wellFormed Params.defaults (.verbL 0x20 0xC00 0x0000) = false := by decide
theorem test_wf_verbL_is_write : Instr.wellFormed Params.defaults (.verbL 0x20 0x400 0xD429) = false := by decide
theorem test_wf_verbL_wide_select : Instr.wellFormed Params.defaults (.verbL 0x20 0x500 0x014F) = true := by decide

/-! ### Decoding: words written out bit by bit from the patterns of R51, R52 and R58 -/

theorem test_decode_select :
    decode Params.defaults ⟨0b00000_0100000_0101_00000000_01001111#32, true⟩ = .ok (.coefSelect 0x20 0x4F) := rfl
theorem test_decode_read :
    decode Params.defaults ⟨0b00000_0100000_1100_0000000000000000#32, true⟩ = .ok (.coefRead 0x20) := rfl
theorem test_decode_write :
    decode Params.defaults ⟨0b00000_0100000_0100_1101010000101001#32, true⟩ = .ok (.coefWrite 0x20 0xD429) := rfl
theorem test_decode_verbS :
    decode Params.defaults ⟨0b00000_0100001_111100001001_00000000#32, false⟩ = .ok (.verbS 0x21 0xF09 0x00) := rfl
theorem test_decode_verbL :
    decode Params.defaults ⟨0b00000_1111111_1111_1111111111111111#32, true⟩ = .ok (.verbL 0x7F 0xF00 0xFFFF) := rfl
theorem test_decode_read_other_payload :
    decode Params.defaults ⟨0b00000_0100000_1100_0000000000000001#32, true⟩ = .ok (.verbL 0x20 0xC00 0x0001) := rfl
theorem test_decode_select_lsb24 :
    decode high ⟨0b0_0100000_0000_0101_00000000_01001111#32, true⟩ = .ok (.coefSelect 0x20 0x4F) := rfl
theorem test_decode_verbS_lsb24 :
    decode high ⟨0b0_1111111_0000_111111111111_11111111#32, false⟩ = .ok (.verbS 0x7F 0xFFF 0xFF) := rfl
theorem test_decode_uncovered : decode Params.defaults ⟨0xFA050045#32, true⟩ = .error .uncoveredBits := rfl
theorem test_decode_uncovered_lsb24 : decode high ⟨0x00100000#32, true⟩ = .error .uncoveredBits := rfl
theorem test_decode_short_row : decodeBits Params.defaults 16 0 = .error .notOneWord := rfl

/-! ### ENCODE and DECODE: the vectors of section 2 -/

/-- Rows E2, E4 and E7 (NODE_LSB = 24), E5, E8, E10, E11, E12. -/
theorem test_encode_vectors :
    enc Params.defaults 0x20 0x500 0x45 false = 0x02050045 ∧
    enc high 0x20 0x400 0xD429 true = 0x2004D429 ∧
    enc Params.defaults 0x21 0xF09 0x00 false = 0x021F0900 ∧
    enc high 0x7F 0xFFF 0xFF false = 0x7F0FFFFF ∧
    enc Params.defaults 0x7F 0xFFF 0xFFFF true = 0x07FFFFFF ∧
    enc Params.defaults 0xA0 0x1500 0x145 false = 0x02050045 ∧
    enc Params.defaults 0xA0 0x1500 0x1D429 true = 0x0205D429 ∧
    enc Params.defaults 0x20 0x4AB 0x1234 true = 0x02041234 := by
  decide
/-- Rows T4, T6, T9, T10 and the second line for NODE_LSB = 24. -/
theorem test_decode_vectors :
    dec Params.defaults 0x0204D429 false = ⟨0x20, 0x4D4, 0x0029⟩ ∧
    dec Params.defaults 0x021F0900 true = ⟨0x21, 0xF00, 0x0900⟩ ∧
    dec Params.defaults 0xFFFFFFFF false = ⟨0x7F, 0xFFF, 0x00FF⟩ ∧
    dec Params.defaults 0xFA050045 true = ⟨0x20, 0x500, 0x0045⟩ ∧
    dec high 0xA0F4D429 true = ⟨0x20, 0x400, 0xD429⟩ := by
  decide

/-! ### States for the steps -/

/-- The state an outcome goes on in. -/
def out : Host.Outcome State Fault Refusal → Option State
  | .next s => some s
  | .fault _ => none
  | .refused _ => none

/-- The reference responder on an open channel, with CIDX and the coefficients of the test. -/
def refState (cidx : Index) (coef : Memory) : State :=
  { State.reset with
    cfg := { Params.defaults with farEnd := .reference }, channel := .opened, responder := ⟨cidx, coef⟩ }

/-- The start of the raw verb sequence of section 3, at the index its next line finds. -/
def rawState (cidx : Index) : State :=
  refState cidx [(0x00, 0x2222), (0x10, 0xAAAA), (0x11, 0xBBBB), (0x12, 0xCCCC), (0xFF, 0x1111)]

/-- `UPDATE 0x20, 0x4F, 0x0070, 0x0050` in the step `st`, CUR and NEW as R130 has them. -/
def atStep (st : SeqStep) : State :=
  { refState 0x4F [(0x4F, 0xD429)] with
    node := 0x20, idx := 0x4F, mask := 0x0070, val := 0x0050, cur := 0xD429, new := 0xD459, stepReg := st }

/-- The same with the next answer replaced (R102). -/
def answeredBy (st : SeqStep) (a : Answer) : State := { atStep st with replaced := [some a] }

/-- The same with a device at the far end. -/
def deviceAt (st : SeqStep) : State := { atStep st with cfg := Params.defaults }

/-! ### The verbs, one step each: the lines of section 3's raw sequence -/

theorem test_select_line1 :
    (out (exec (.coefSelect 0x20 0xFF) (rawState 0x77))).map (fun s => (s.lastAnswer, s.responder.cidx)) =
      some (some (.resp 0x00000000), 0xFF) := by decide
theorem test_read_line2_wraps :
    (out (exec (.coefRead 0x20) (rawState 0xFF))).map (fun s => (s.lastAnswer, s.responder.cidx)) =
      some (some (.resp 0x00001111), 0x00) := by decide
theorem test_write_line6_no_reselect :
    (out (exec (.coefWrite 0x20 0xA5A5) (rawState 0x11))).map
      (fun s => (s.lastAnswer, s.responder.cidx, s.responder.coef.read 0x11, s.responder.coef.read 0x10)) =
      some (some (.resp 0x00000000), 0x12, 0xA5A5, 0xAAAA) := by decide
theorem test_write_zero_unlists :
    (out (exec (.coefWrite 0x20 0x0000) (refState 0x4F [(0x4F, 0xD429)]))).map (fun s => s.responder) =
      some ⟨0x50, []⟩ := by decide
theorem test_select_wrong_node :
    (out (exec (.coefSelect 0x21 0x10) (rawState 0x77))).map (fun s => (s.lastAnswer, s.responder.cidx)) =
      some (some (.resp 0x00000001), 0x77) := by decide
theorem test_verbS_is_select :
    (out (exec (.verbS 0x20 0x500 0x10) (rawState 0x77))).map (fun s => (s.lastAnswer, s.responder.cidx)) =
      some (some (.resp 0x00000000), 0x10) := by decide
theorem test_verbL_other :
    (out (exec (.verbL 0x20 0x700 0x1234) (rawState 0x77))).map (fun s => (s.history, s.responder.cidx)) =
      some ([⟨0x02071234, .resp 0x00000000⟩], 0x77) := by decide

/-! ### The port operations -/

theorem test_encode_E1_on_ports :
    (out (exec (.encode 0x20 0x500 0x45 true) State.reset)).map State.encWord = some 0x02050045 := by decide
theorem test_decode_T3_on_ports :
    (out (exec (.decode 0x0204D429 true) State.reset)).map State.decFields = some ⟨0x20, 0x400, 0xD429⟩ := by decide
theorem test_update_P5_truncates :
    (out (exec (.update 0xA0 0x14F 0x1FF00 0xABCD1234) State.reset)).map
      (fun s => (s.node, s.idx, s.mask, s.val, s.stepReg)) = some (0x20, 0x4F, 0xFF00, 0x1234, .sel1) := by decide
theorem test_update_while_busy :
    (out (exec (.update 0x21 0x10 0x00FF 0x00AA) (atStep .wr))).map
      (fun s => (s.node, s.idx, s.mask, s.val, s.stepReg)) = some (0x20, 0x4F, 0x0070, 0x0050, .wr) := by decide

/-! ### One step of the sequencer: R130, the merges of section 4 and its failure rows -/

/-- The steps of R130, and row M2. -/
theorem test_step_R130 :
    ((out (step (atStep .sel1))).map (fun s => (s.stepReg, s.history)) =
      some (.rd1, [⟨0x0205004F, .resp 0x00000000⟩])) ∧
    ((out (step (atStep .rd1))).map (fun s => (s.stepReg, s.cur, s.new, s.responder.cidx)) =
      some (.sel2, 0xD429, 0xD459, 0x50)) ∧
    ((out (step { atStep .rd1 with responder := ⟨0x4F, [(0x4F, 0xD459)]⟩ })).map
      (fun s => (s.stepReg, s.done, s.status, s.result)) = some (.idle, true, .ok, 0xD459)) ∧
    ((out (step (atStep .wr))).map (fun s => (s.stepReg, s.history, s.responder)) =
      some (.sel3, [⟨0x0204D459, .resp 0x00000000⟩], ⟨0x50, [(0x4F, 0xD459)]⟩)) := by
  decide
/-- The last step of rows F1, F4, F6, F8, F11. -/
theorem test_step_failures :
    ((out (step (answeredBy .sel1 .channelError))).map (fun s => (s.stepReg, s.done, s.status, s.responder.cidx)) =
      some (.idle, true, .channelError, 0x4F)) ∧
    ((out (step (answeredBy .rd1 (.resp 0xFFFFFFFF)))).map (fun s => (s.stepReg, s.status, s.responder.cidx)) =
      some (.idle, .readInvalid, 0x50)) ∧
    ((out (step (answeredBy .wr (.resp 0x00000002)))).map (fun s => (s.stepReg, s.status, s.responder)) =
      some (.idle, .writeRejected, ⟨0x4F, [(0x4F, 0xD429)]⟩)) ∧
    (out (step (answeredBy .sel3 (.resp 0xFFFFFFFF)))).map (fun s => (s.stepReg, s.updStatus)) = some (.idle, 2) ∧
    ((out (step (answeredBy .rd2 (.resp 0x0000D429)))).map (fun s => (s.updStatus, s.updResult, s.new)) =
      some (0, some 0xD429, 0xD459)) := by
  decide
/-- Rows M3, M9, M10. -/
theorem test_merge_vectors :
    merge 0x1234 0x00F0 0xFFFF = 0x12F4 ∧
    merge 0x5555 0xAAAA 0xAAAA = 0xFFFF ∧
    merge 0xFFFF 0x000F 0x0000 = 0xFFF0 := by
  decide

/-! ### Reset, requests, the channel -/

theorem test_reset_while_busy : step { atStep .wr with requests := [⟨.reset, false⟩] } = .refused .resetWhileBusy := rfl
theorem test_reset_waits :
    (out (step { atStep .wr with requests := [⟨.reset, true⟩] })).map (fun s => (s.stepReg, s.requests)) =
      some (.sel3, [⟨.reset, true⟩]) := by decide
/-- R2: the caller acts after one exchange of a running UPDATE and before the next. -/
theorem test_pass_leaves_the_step :
    (out (step { atStep .rd1 with requests := [⟨.pass, false⟩, ⟨.op (.encode 0x20 0x500 0x45 true), false⟩] })).map
      (fun s => (s.stepReg, s.requests)) = some (.sel2, [⟨.op (.encode 0x20 0x500 0x45 true), false⟩]) := by decide
/-- D29, 91_not_in_source.md N4 and N16: the first four words bind a device to nothing. -/
theorem test_device_other_words :
    recogniseExact Params.defaults 0x0205014F = .other ∧ recogniseExact Params.defaults 0x020C0001 = .other ∧
    recogniseExact Params.defaults 0xFA05004F = .other ∧ recogniseExact Params.defaults 0x0A0C0000 = .other ∧
    recogniseExact Params.defaults 0x0205004F = .select 0x4F ∧ recogniseExact Params.defaults 0x020C0000 = .read ∧
    recogniseExact Params.defaults 0x0214FFFF = .strayAck := by decide
theorem test_fetch_word_after_reset :
    step (State.reset.withFetchWord 32 0x0205004F) = exec (.coefSelect 0x20 0x4F) { State.reset with channel := .opened } :=
  rfl
theorem test_hung : step { atStep .sel1 with channel := .hung } = .fault .channelNeverAnswers := rfl

/-! ### Witnesses: for each obligation with hypotheses, a state and operands that meet them -/

theorem test_witness_EncodePacksTruncatedFields :
    State.reset.cfg.wellFormed = true ∧ ({ State.reset with cfg := high } : State).cfg.wellFormed = true := by decide
theorem test_witness_DecodeSlicesFields : (atStep .wr).cfg.wellFormed = true := by decide
theorem test_witness_FieldsRoundTrip : Params.defaults.wellFormed = true ∧
    (0x7F#32).toNat < 2 ^ 7 ∧ (0xFFF#32).toNat < 2 ^ 12 ∧ (0xFF#32).toNat < 2 ^ 8 ∧
    (0xF00#32).toNat < 2 ^ 12 ∧ (0xF00#32).extractLsb' 0 8 = 0#8 ∧ (0xFFFF#32).toNat < 2 ^ 16 := by decide
theorem test_witness_WordRoundTrip :
    Params.defaults.wellFormed = true ∧ Params.defaults.nodeLsb = 20 ∧ high.wellFormed = true ∧ high.nodeLsb = 24 := by
  decide
theorem test_witness_EncodeIsSingleExpression : ∀ wide : Bool, high.wellFormed = true ∧
    (0x7F#32).toNat < 2 ^ 7 ∧ (0xF00#32).toNat < 2 ^ 12 ∧
    (if wide then (0xF00#32).extractLsb' 0 8 = 0#8 ∧ (0xFFFF#32).toNat < 2 ^ 16 else (0xFF#32).toNat < 2 ^ 8) := by
  decide
theorem test_witness_WrongFormReading : Params.defaults.wellFormed = true ∧
    (0x0205004F#32).extractLsb' 8 8 = 0#8 ∧ (0x0204D429#32).extractLsb' 8 8 ≠ 0#8 := by decide
theorem test_witness_FormsCoincide : (0xF00#32).extractLsb' 0 8 = 0#8 ∧ (0xFF#32).toNat < 0x100 := by decide
theorem test_witness_VerbEncodingRoundTrip : Params.defaults.wellFormed = true ∧
    (Instr.verbL 0x7F 0xF00 0xFFFF).wellFormed Params.defaults = true ∧
    encode Params.defaults (.verbL 0x7F 0xF00 0xFFFF) = some ⟨0x07FFFFFF, true⟩ := by decide
theorem test_witness_DecodedVerbsReencode :
    high.wellFormed = true ∧ decode high ⟨0x200500FF, true⟩ = .ok (.coefSelect 0x20 0xFF) := ⟨by decide, rfl⟩
theorem test_witness_CoefficientWordFields : high.wellFormed = true := by decide
theorem test_witness_StepRunsDecodedInstruction :
    (rawState 0).busy = false ∧ decode (rawState 0).cfg ⟨0x020C0000, true⟩ = .ok (.coefRead 0x20) ∧
    (atStep .wr).busy = true ∧ decode (atStep .wr).cfg ⟨0x021F0900, false⟩ = .ok (.verbS 0x21 0xF09 0x00) :=
  ⟨rfl, rfl, rfl, rfl⟩
theorem test_witness_FetchWordRunsNext :
    decodeBits State.reset.cfg 32 0x0204D429 = .ok (.coefWrite 0x20 0xD429) := rfl
theorem test_witness_StepOtherwise :
    State.reset.requests = [] ∧ (atStep .rd2).busy = true ∧
    ({ atStep .rd1 with requests := [⟨.pass, false⟩] } : State).requests = ⟨.pass, false⟩ :: [] ∧
    ({ atStep .wr with requests := [⟨.channel .closed, false⟩] } : State).requests = ⟨.channel .closed, false⟩ :: [] ∧ (atStep .idle).stepReg = .idle ∧
    (0xFA050045#32) &&& (rawState 0).cfg.zeroMask ≠ 0#32 := by decide
theorem test_witness_VerbsExchangeOnce :
    (rawState 0).channel ≠ .hung ∧ State.reset.channel ≠ .hung ∧ (deviceAt .idle).channel ≠ .hung := by decide
theorem test_witness_HungChannelStops :
    ({ atStep .rd1 with channel := .hung } : State).channel = .hung ∧ (atStep .rd1).stepReg ≠ .idle := by decide
theorem referenced_rawState (i : Index) : Referenced (rawState i) := ⟨rfl, rfl, rfl⟩
theorem test_witness_ReferenceSelect : Referenced (rawState 0x77) ∧ (rawState 0x77).cfg.wellFormed = true ∧
    (dec (rawState 0x77).cfg 0x020501FF true).node = (rawState 0x77).cfg.coefNode ∧
    (dec (rawState 0x77).cfg 0x020501FF true).verb.high = (rawState 0x77).cfg.verbSel.high :=
  ⟨referenced_rawState _, by decide⟩
theorem test_witness_ReferenceRead : Referenced (rawState 0xFF) ∧ (rawState 0xFF).cfg.wellFormed = true ∧
    (dec (rawState 0xFF).cfg 0x020C0001 true).node = (rawState 0xFF).cfg.coefNode ∧
    (dec (rawState 0xFF).cfg 0x020C0001 true).verb.high = (rawState 0xFF).cfg.verbRd.high :=
  ⟨referenced_rawState _, by decide⟩
theorem test_witness_ReferenceWrite : Referenced (rawState 0xFF) ∧ (rawState 0xFF).cfg.wellFormed = true ∧
    Memory.wf (rawState 0xFF).responder.coef = true ∧
    (dec (rawState 0xFF).cfg 0x02040000 true).node = (rawState 0xFF).cfg.coefNode ∧
    (dec (rawState 0xFF).cfg 0x02040000 true).verb.high = (rawState 0xFF).cfg.verbWr.high :=
  ⟨referenced_rawState _, by decide⟩
theorem test_witness_ReferenceWrongNode : Referenced (rawState 0) ∧ (rawState 0).cfg.wellFormed = true ∧
    (dec (rawState 0).cfg 0x02150010 true).node ≠ (rawState 0).cfg.coefNode ∧
    (dec (rawState 0).cfg 0x0214D429 true).node ≠ (rawState 0).cfg.coefNode ∧
    (dec (rawState 0).cfg 0x021C0000 true).node ≠ (rawState 0).cfg.coefNode ∧
    (dec (rawState 0).cfg 0x02150010 true).verb.high = (rawState 0).cfg.verbSel.high ∧
    (dec (rawState 0).cfg 0x0214D429 true).verb.high = (rawState 0).cfg.verbWr.high ∧
    (dec (rawState 0).cfg 0x021C0000 true).verb.high = (rawState 0).cfg.verbRd.high :=
  ⟨referenced_rawState _, by decide⟩
theorem test_witness_ReferenceOtherVerbs : Referenced (rawState 0) ∧ (rawState 0).cfg.wellFormed = true ∧
    (dec (rawState 0).cfg 0x02071234 true).verb.high = 0x7#4 ∧ VerbId.high 0xFFF = 0xF#4 ∧
    (∀ h ∈ [0x7#4, 0xF#4], h ≠ (rawState 0).cfg.verbSel.high ∧ h ≠ (rawState 0).cfg.verbRd.high ∧
      h ≠ (rawState 0).cfg.verbWr.high) :=
  ⟨referenced_rawState _, by decide⟩
theorem test_witness_ReplacedAnswers : ∀ a ∈ [Answer.channelError, .resp 0xFFFFFFFF],
    (answeredBy .sel1 a).channel = .opened ∧ (answeredBy .sel1 a).cfg.farEnd = .reference ∧
    (answeredBy .sel1 a).cfg.wellFormed = true ∧ (answeredBy .sel1 a).replaced = some a :: [] := by decide
theorem test_witness_ReferenceConsequences : Referenced (rawState 0xFF) ∧ (rawState 0xFF).cfg.wellFormed = true ∧
    Memory.wf (rawState 0xFF).responder.coef = true :=
  ⟨referenced_rawState _, by decide⟩
theorem test_witness_VerbsCoefficientFrame :
    (rawState 0x11).cfg.farEnd = .reference ∧ (rawState 0x11).cfg.wellFormed = true ∧
    (out (exec (.coefSelect 0x20 0x10) (rawState 0x11))).isSome ∧ (out (exec (.coefRead 0x20) (rawState 0x11))).isSome ∧
    (out (exec (.coefWrite 0x20 0xA5A5) (rawState 0x11))).isSome ∧
    (out (exec (.verbS 0x20 0x4A5 0xA5) (rawState 0x11))).isSome ∧
    (out (exec (.verbL 0x20 0x700 0xFFFF) (rawState 0x11))).isSome := by decide
theorem test_witness_DeviceAnswers : Deviced (deviceAt .idle) ∧ (deviceAt .idle).cfg.wellFormed = true :=
  ⟨⟨rfl, rfl⟩, by decide⟩
theorem test_witness_UpdateStart : State.reset.stepReg = .idle ∧ (atStep .rd2).stepReg ≠ .idle := by decide
theorem test_witness_ChannelErrorEndsUpdate :
    (atStep .sel1).stepReg ≠ .idle ∧ (atStep .sel1).channel ≠ .hung ∧
    (answeredBy .rd2 .channelError).stepReg ≠ .idle ∧ (answeredBy .rd2 .channelError).channel ≠ .hung := by decide

/-- The answer of the exchange a sequencer step makes. -/
def stepAnswer (s : State) : Option Answer := s.chCmd.bind fun w => (exchange s w).map Prod.fst

theorem test_witness_SelectSteps : ∀ st ∈ [SeqStep.sel1, .sel2, .sel3],
    (atStep st).chCmd = some 0x0205004F#32 ∧ stepAnswer (atStep st) = some (.resp 0x00000000) ∧
    stepAnswer (answeredBy st (.resp 0xFFFFFFFF)) = some (.resp 0xFFFFFFFF) := by decide
theorem test_witness_FirstReadStep :
    (atStep .rd1).chCmd = some 0x020C0000#32 ∧ stepAnswer (atStep .rd1) = some (.resp 0x0000D429) ∧
    stepAnswer (answeredBy .rd1 (.resp 0xFFFFD459)) = some (.resp 0xFFFFD459) ∧
    merge 0xD459 (atStep .rd1).mask (atStep .rd1).val = 0xD459 := by decide
theorem test_witness_InvalidReadEndsUpdate : ∀ st ∈ [SeqStep.rd1, .rd2],
    (answeredBy st (.resp 0xFFFFFFFF)).chCmd = some 0x020C0000#32 ∧
    stepAnswer (answeredBy st (.resp 0xFFFFFFFF)) = some (.resp 0xFFFFFFFF) := by decide
theorem test_witness_WriteStep :
    (atStep .wr).chCmd = some 0x0204D459#32 ∧ stepAnswer (atStep .wr) = some (.resp 0x00000000) ∧
    stepAnswer (answeredBy .wr (.resp 0x00000002)) = some (.resp 0x00000002) := by decide
theorem test_witness_ReadBackStep :
    (atStep .rd2).chCmd = some 0x020C0000#32 ∧ stepAnswer (atStep .rd2) = some (.resp 0x0000D429) := by decide
theorem test_witness_MergeBitByBit : (15 : Nat) < 16 ∧ (0 : Nat) < 16 := by decide

theorem quiet_rawState (i : Index) : Quiet (rawState i) := ⟨rfl, rfl⟩
theorem test_witness_UpdateRefinesPseudocode : Quiet State.reset ∧ Quiet (rawState 0) := ⟨⟨rfl, rfl⟩, quiet_rawState 0⟩
theorem test_witness_UpdateHistories :
    Quiet (deviceAt .idle) ∧ (deviceAt .idle).channel ≠ .hung ∧ Quiet State.reset ∧ State.reset.channel ≠ .hung :=
  ⟨⟨rfl, rfl⟩, by decide, ⟨rfl, rfl⟩, by decide⟩
theorem test_witness_UpdateWithReference :
    Quiet (rawState 0) ∧ Referenced (rawState 0) ∧ (rawState 0).cfg.wellFormed = true ∧
    Memory.wf (rawState 0).responder.coef = true ∧ (0xFFFFFFA0#32).setWidth 7 = (rawState 0).cfg.coefNode :=
  ⟨quiet_rawState 0, referenced_rawState 0, by decide⟩
theorem test_witness_SecondUpdateSendsNoWrite :
    Quiet (rawState 0xFF) ∧ Referenced (rawState 0xFF) ∧ (rawState 0xFF).cfg.wellFormed = true ∧
    Memory.wf (rawState 0xFF).responder.coef = true ∧ (0x20#32).setWidth 7 = (rawState 0xFF).cfg.coefNode :=
  ⟨quiet_rawState 0xFF, referenced_rawState 0xFF, by decide⟩
theorem test_witness_MaskZeroEndsInTwoExchanges : Quiet (rawState 0) ∧ (0xFFFF0000#32).setWidth 16 = 0#16 ∧
    ((out (Sys2Proof.core.run 2 (started (rawState 0) 0x20 0x10 0xFFFF0000 0x1234))).map
      (fun s => (s.status, s.result))) = some (.ok, 0xAAAA) :=
  ⟨quiet_rawState 0, by decide, by decide⟩
/-- Both clauses: a select that is acknowledged, and one whose answer is replaced by a channel error (R102). -/
theorem test_witness_MaskZeroSendsSelectAndRead :
    let broken : State := { rawState 0 with replaced := [some .channelError] }
    let sent := fun s : State => (out (Sys2Proof.core.run 2 (started s 0x20 0x10 0xFFFF0000 0x1234))).map
      (fun u => u.history.map Exchange.command)
    Quiet (rawState 0) ∧ (rawState 0).channel ≠ .hung ∧ Quiet broken ∧ broken.channel ≠ .hung ∧
    (0xFFFF0000#32).setWidth 16 = 0#16 ∧
    sent (rawState 0) = some [0x020C0000, 0x02050010] ∧ sent broken = some [0x02050010] :=
  ⟨quiet_rawState 0, by decide, ⟨rfl, rfl⟩, by decide, by decide, by decide, by decide⟩
theorem test_witness_ClosedChannelUpdate :
    Quiet State.reset ∧ State.reset.channel = .closed ∧ State.reset.cfg.wellFormed = true :=
  ⟨⟨rfl, rfl⟩, by decide⟩
theorem test_witness_UpdateForgetsEarlierUpdates :
    let s := rawState 0
    let x : State := { s with node := 1, idx := 2, mask := 3, val := 4, cur := 5, new := 6, done := true
                              status := .readInvalid, result := 7 }
    Quiet s ∧ Quiet x ∧ s.channel ≠ .hung ∧ x.cfg = s.cfg ∧ x.channel = s.channel ∧ x.responder = s.responder ∧
    x.replaced = s.replaced ∧ x.history = s.history ∧ x.draws = s.draws ∧ x.cur ≠ s.cur ∧ x.status ≠ s.status :=
  ⟨⟨rfl, rfl⟩, ⟨rfl, rfl⟩, by decide⟩
theorem test_witness_LatchedOperandsOnly : ∃ t, sequencerStep (atStep .wr) = .next t := ⟨_, rfl⟩
theorem test_witness_CodecDoesNotInterfere : ∃ t, sequencerStep (atStep .rd1) = .next t := ⟨_, rfl⟩
theorem test_witness_UpdateSendsAtMostFour : Quiet (rawState 0) ∧ Referenced (rawState 0) ∧
    (rawState 0).cfg.wellFormed = true ∧
    (out (Sys2Proof.core.run 6 (started (rawState 0) 0x21 0x10 0x00FF 0x00AA))).isSome = true :=
  ⟨quiet_rawState 0, referenced_rawState 0, by decide, by decide⟩
theorem test_witness_OkMeansResultIsNew : Quiet (rawState 0) ∧ (rawState 0).channel = .opened ∧
    (rawState 0).cfg.wellFormed = true ∧
    (out (Sys2Proof.core.run 6 (started (rawState 0) 0x20 0x10 0x0000 0x0000))).map (fun s => s.status) = some .ok :=
  ⟨quiet_rawState 0, rfl, by decide, by decide⟩

theorem inv_atStep_wr : (atStep .wr).Inv := ⟨by decide, fun _ => by decide, fun _ => rfl⟩
theorem test_witness_StepKeepsInvariant : (atStep .wr).Inv ∧ ∃ t, step (atStep .wr) = .next t := ⟨inv_atStep_wr, _, rfl⟩
theorem test_witness_SelectBeforeEveryAccess :
    let s : State := { atStep .sel2 with history := [⟨0x020C0000, .resp 0x0000D429⟩] }
    let t : State := { atStep .wr with history := [⟨0x0205004F, .resp 0x00000000⟩] }
    (SelectedInv s ∧ ∃ u, sequencerStep s = .next u) ∧ (SelectedInv t ∧ ∃ u, sequencerStep t = .next u) ∧
    SelectedInv State.reset ∧ ∃ u, exec (.update 0x20 0x4F 0x0070 0x0050) State.reset = .next u :=
  ⟨⟨by simp [SelectedInv, atStep], _, rfl⟩, ⟨fun _ => rfl, _, rfl⟩, by simp [SelectedInv, State.reset], _, rfl⟩
theorem test_witness_WriteIsNeverRedundant : (atStep .wr).Inv ∧ (atStep .wr).stepReg = .wr := ⟨inv_atStep_wr, rfl⟩
theorem test_witness_StepKeepsParameters : ∃ t, step (atStep .wr) = .next t := ⟨_, rfl⟩
theorem test_witness_StepAddsAtMostOneExchange :
    (∃ t, step (atStep .wr) = .next t) ∧ ∃ t, step State.reset = .next t := ⟨⟨_, rfl⟩, _, rfl⟩
theorem test_witness_RunningUpdateIsNotCut :
    (atStep .rd2).stepReg ≠ .idle ∧ ∃ t, step (atStep .rd2) = .next t := ⟨by decide, _, rfl⟩
theorem test_witness_ResetEvent :
    (∃ rest, ({ rawState 0 with requests := [⟨.reset, false⟩] } : State).requests = ⟨.reset, false⟩ :: rest) ∧
    (rawState 0).stepReg = .idle ∧ (atStep .wr).stepReg ≠ .idle := ⟨⟨_, rfl⟩, by decide⟩

end Sys2Proof.Tests
end

/-! O1 and O2: the two functions of the codec as arithmetic (40_verb_codec.md R70, R73). -/

namespace Sys2Proof

/-! ### ENCODE: fields side by side are a sum -/

/-- A field placed where the word has room for it loses no bit. -/
theorem toNat_placeField {a : Nat} (x : BitVec a) {i : Nat} (h : i + a ≤ 32) :
    (x.setWidth 32 <<< i).toNat = x.toNat <<< i := by
  have hs : x.toNat <<< i < 2 ^ 32 := by
    calc x.toNat <<< i = x.toNat * 2 ^ i := Nat.shiftLeft_eq ..
      _ < 2 ^ a * 2 ^ i := Nat.mul_lt_mul_of_pos_right x.isLt (by positivity)
      _ = 2 ^ (i + a) := by rw [← pow_add, Nat.add_comm]
      _ ≤ 2 ^ 32 := Nat.pow_le_pow_right (by omega) h
  rw [BitVec.toNat_shiftLeft, BitVec.toNat_setWidth_of_le (by omega), Nat.mod_eq_of_lt hs]

/-- Three fields that do not overlap: `z` at the bottom, `y` right above it, `x` at `i`. -/
theorem toNat_packFields {a b d : Nat} (x : BitVec a) (y : BitVec b) (z : BitVec d) {i : Nat}
    (hi : d + b ≤ i) (ha : i + a ≤ 32) :
    (x.setWidth 32 <<< i ||| y.setWidth 32 <<< d ||| z.setWidth 32).toNat =
      x.toNat * 2 ^ i + (y.toNat * 2 ^ d + z.toNat) := by
  have hz : (z.setWidth 32).toNat = z.toNat := BitVec.toNat_setWidth_of_le (by omega)
  have hlow : y.toNat <<< d + z.toNat < 2 ^ i := by
    have hy : y.toNat + 1 ≤ 2 ^ b := y.isLt
    calc y.toNat <<< d + z.toNat
        < y.toNat * 2 ^ d + 2 ^ d := by rw [Nat.shiftLeft_eq]; exact Nat.add_lt_add_left z.isLt _
      _ = (y.toNat + 1) * 2 ^ d := by ring
      _ ≤ 2 ^ b * 2 ^ d := Nat.mul_le_mul_right _ hy
      _ = 2 ^ (d + b) := by rw [← pow_add, Nat.add_comm]
      _ ≤ 2 ^ i := Nat.pow_le_pow_right (by omega) hi
  rw [BitVec.or_assoc, BitVec.toNat_or, BitVec.toNat_or, toNat_placeField x ha, toNat_placeField y (by omega), hz,
    ← Nat.shiftLeft_add_eq_or_of_lt z.isLt, ← Nat.shiftLeft_add_eq_or_of_lt hlow]
  simp only [Nat.shiftLeft_eq]

/-- R70 as arithmetic: each operand modulo the width of its field, at the field's position. -/
theorem enc_toNat {c : Params} (h : c.wellFormed = true) (n v p : BitVec 32) (wide : Bool) :
    (enc c n v p wide).toNat = (n.toNat % 2 ^ 7) * 2 ^ c.nodeLsb +
      (if wide then (v.toNat / 2 ^ 8 % 2 ^ 4) * 2 ^ 16 + p.toNat % 2 ^ 16
       else (v.toNat % 2 ^ 12) * 2 ^ 8 + p.toNat % 2 ^ 8) := by
  obtain ⟨hlo, hhi⟩ := nodeLsb_range h
  cases wide
  · have hpack := toNat_packFields (n.setWidth 7) (v.setWidth 12) (p.setWidth 8) hlo (by omega)
    simpa only [enc, Bool.false_eq_true, if_false, BitVec.toNat_setWidth] using hpack
  · have hpack := toNat_packFields (n.setWidth 7) (v.extractLsb' 8 4) (p.setWidth 16) hlo (by omega)
    simpa only [enc, if_true, BitVec.toNat_setWidth, BitVec.extractLsb'_toNat, Nat.shiftRight_eq_div_pow] using hpack

/-! ### DECODE: slices are quotients and remainders -/

theorem dec_node_toNat (c : Params) (w : Word) (wide : Bool) :
    (dec c w wide).node.toNat = w.toNat / 2 ^ c.nodeLsb % 2 ^ 7 := by
  cases wide <;> simp [dec, Nat.shiftRight_eq_div_pow]

theorem dec_verb_toNat (c : Params) (w : Word) (wide : Bool) :
    (dec c w wide).verb.toNat =
      if wide then w.toNat / 2 ^ 16 % 2 ^ 4 * 2 ^ 8 else w.toNat / 2 ^ 8 % 2 ^ 12 := by
  cases wide
  · simp [dec, Nat.shiftRight_eq_div_pow]
  · have happend := BitVec.toNat_append (w.extractLsb' 16 4) 0#8
    simpa [dec, Nat.shiftRight_eq_div_pow, Nat.shiftLeft_eq] using happend

theorem dec_payload_toNat (c : Params) (w : Word) (wide : Bool) :
    (dec c w wide).payload.toNat = if wide then w.toNat % 2 ^ 16 else w.toNat % 2 ^ 8 := by
  cases wide
  · have h8 : w.toNat % 2 ^ 8 < 2 ^ 16 := by omega
    simpa [dec] using h8
  · simp [dec]

@[ext] theorem Fields.ext {f g : Fields} (hn : f.node = g.node) (hv : f.verb = g.verb) (hp : f.payload = g.payload) :
    f = g := by
  cases f; cases g; simp_all

/-! ### DECODE reads no uncovered bit -/

theorem zeroMask_node_bit (c : Params) {k : Nat} (h : k < 7) : c.zeroMask.getLsbD (c.nodeLsb + k) = false := by
  simp [zeroMask_getLsbD, h]

theorem zeroMask_low_bit (c : Params) {k : Nat} (h : k < 20) : c.zeroMask.getLsbD k = false := by
  simp [zeroMask_getLsbD, h]

/-- Words that agree on every covered bit have the same fields, in either form. -/
theorem dec_congr {c : Params} {w x : Word} (h : ∀ k, c.zeroMask.getLsbD k = false → w.getLsbD k = x.getLsbD k)
    (wide : Bool) : dec c w wide = dec c x wide := by
  have hnode : ∀ k < 7, w.getLsbD (c.nodeLsb + k) = x.getLsbD (c.nodeLsb + k) :=
    fun k hk => h _ (zeroMask_node_bit c hk)
  have hlow : ∀ k < 20, w.getLsbD k = x.getLsbD k := fun k hk => h k (zeroMask_low_bit c hk)
  refine Fields.ext (BitVec.eq_of_getLsbD_eq fun k hk => ?_) (BitVec.eq_of_getLsbD_eq fun k hk => ?_)
    (BitVec.eq_of_getLsbD_eq fun k hk => ?_)
  · rw [dec_node_getLsbD, dec_node_getLsbD, hnode k hk]
  · have hv := hlow (8 + k) (by omega)
    cases wide
    · rw [dec_short_verb_getLsbD, dec_short_verb_getLsbD, hv]
    · rw [dec_long_verb_getLsbD, dec_long_verb_getLsbD, hv]
  · have hp := hlow k (by omega)
    cases wide
    · rw [dec_short_payload_getLsbD, dec_short_payload_getLsbD, hp]
    · rw [dec_long_payload_getLsbD, dec_long_payload_getLsbD, hp]

/-- R73: what a word holds in its uncovered bits makes no difference to DECODE. -/
theorem dec_replace_uncovered (c : Params) (w x : Word) (wide : Bool) :
    dec c ((w &&& ~~~c.zeroMask) ||| (x &&& c.zeroMask)) wide = dec c w wide := by
  refine dec_congr (fun k hk => ?_) wide
  rw [BitVec.getLsbD_or, BitVec.getLsbD_and, BitVec.getLsbD_and, BitVec.getLsbD_not, hk]
  by_cases h32 : k < 32
  · simp [h32]
  · simp [BitVec.getLsbD_of_ge w k (by omega)]

/-! ### The two operations on the ports -/

open Machine

theorem exec_encode (n v p : BitVec 32) (wide : Bool) (s : State) :
    exec (.encode n v p wide) s =
      .next (s.drive { s.ports with encNode := n, encVerb := v, encPayload := p, encWide := wide }) := rfl

theorem exec_decode (w : Word) (wide : Bool) (s : State) :
    exec (.decode w wide) s = .next (s.drive { s.ports with decWord := w, decWide := wide }) := rfl

/-- Settles O1: the three fields of a well-formed layout do not overlap, so their union is their sum. -/
theorem encodePacksTruncatedFields : Obligations.EncodePacksTruncatedFields := by
  intro s n v p wide h
  exact ⟨_, exec_encode n v p wide s, rfl, enc_toNat h n v p wide⟩

/-- Settles O2: each output is a quotient and remainder of the word, and no covered bit is an uncovered one. -/
theorem decodeSlicesFields : Obligations.DecodeSlicesFields := by
  intro s w wide _
  exact ⟨_, exec_decode w wide s, rfl, dec_node_toNat s.cfg w wide, dec_verb_toNat s.cfg w wide,
    dec_payload_toNat s.cfg w wide, fun x => dec_replace_uncovered s.cfg w x wide⟩

end Sys2Proof

/-! O18 to O22: the reference responder, word by word and verb by verb (41_coef_verbs.md R95 to R101). -/

namespace Sys2Proof

/-! ### What a responder reads from an encoded word (R95) -/

/-- The node field stands at one place in both forms, so either reading of either form's word gives the node. -/
theorem dec_node_enc {c : Params} (h : c.wellFormed = true) (n v p : BitVec 32) (form wide : Bool) :
    (dec c (enc c n v p form) wide).node = n.setWidth 7 := by
  obtain ⟨hlo, hhi⟩ := nodeLsb_range h
  refine BitVec.eq_of_getLsbD_eq fun k hk => ?_
  have hword : c.nodeLsb + k < 32 := by omega
  rw [dec_node_getLsbD, BitVec.getLsbD_setWidth]
  cases form
  · have hverb : ¬ c.nodeLsb + k - 8 < 12 := by omega
    have hpayload : ¬ c.nodeLsb + k < 8 := by omega
    rw [enc_short_getLsbD]
    simp [hk, hword, hverb, hpayload]
  · have hverb : ¬ c.nodeLsb + k - 16 < 4 := by omega
    have hpayload : ¬ c.nodeLsb + k < 16 := by omega
    rw [enc_long_getLsbD]
    simp [hk, hword, hverb, hpayload]

/-- Both forms put `verb[11:8]` at bits 19:16, where the form L reading finds it. -/
theorem dec_long_verb_high_enc {c : Params} (h : c.wellFormed = true) (n v p : BitVec 32) (form : Bool) :
    (dec c (enc c n v p form) true).verb.high = v.extractLsb' 8 4 := by
  obtain ⟨hlo, -⟩ := nodeLsb_range h
  refine BitVec.eq_of_getLsbD_eq fun k hk => ?_
  have hnode : ¬ c.nodeLsb ≤ 8 + (8 + k) := by omega
  have hword : 8 + (8 + k) < 32 := by omega
  have hfield : 8 + k < 12 := by omega
  rw [VerbId.high, BitVec.getLsbD_extractLsb', BitVec.getLsbD_extractLsb', dec_long_verb_getLsbD]
  cases form
  · have hpayload : ¬ 8 + (8 + k) < 8 := by omega
    rw [enc_short_getLsbD]
    simp [hk, hnode, hword, hfield, hpayload]
  · have hlow : 16 ≤ 8 + (8 + k) := by omega
    have hplace : 8 + (8 + k) - 16 = k := by omega
    rw [enc_long_getLsbD]
    simp [hk, hnode, hword, hfield, hlow, hplace]

theorem dec_long_payload_enc_long {c : Params} (h : c.wellFormed = true) (n v p : BitVec 32) :
    (dec c (enc c n v p true) true).payload = p.setWidth 16 := by
  obtain ⟨hlo, -⟩ := nodeLsb_range h
  refine BitVec.eq_of_getLsbD_eq fun k hk => ?_
  have hnode : ¬ c.nodeLsb ≤ k := by omega
  have hverb : ¬ 16 ≤ k := by omega
  have hword : k < 32 := by omega
  rw [dec_long_payload_getLsbD, enc_long_getLsbD, BitVec.getLsbD_setWidth]
  simp [hk, hnode, hverb, hword]

theorem dec_node_enc_node {c : Params} (h : c.wellFormed = true) (n : NodeId) (v p : BitVec 32) (form wide : Bool) :
    (dec c (enc c (n.setWidth 32) v p form) wide).node = n := by
  simp [dec_node_enc h]

theorem dec_long_verb_high_enc_verb {c : Params} (h : c.wellFormed = true) (n p : BitVec 32) (v : VerbId)
    (form : Bool) : (dec c (enc c n (v.setWidth 32) p form) true).verb.high = v.high := by
  rw [dec_long_verb_high_enc h]
  refine BitVec.eq_of_getLsbD_eq fun k hk => ?_
  have hfield : 8 + k < 32 := by omega
  simp [VerbId.high, hk, hfield]

/-! ### The form L reading of each row's word -/

section RowWords

variable {c : Params} (h : c.wellFormed = true) (n : NodeId)
include h

theorem dec_node_selectWord (i : Index) : (dec c (selectWord c n i) true).node = n :=
  dec_node_enc_node h n _ _ true true

theorem dec_node_readWord : (dec c (readWord c n) true).node = n :=
  dec_node_enc_node h n _ _ true true

theorem dec_node_writeWord (d : Coef) : (dec c (writeWord c n d) true).node = n :=
  dec_node_enc_node h n _ _ true true

theorem dec_verb_high_selectWord (i : Index) : (dec c (selectWord c n i) true).verb.high = c.verbSel.high :=
  dec_long_verb_high_enc_verb h _ _ _ true

theorem dec_verb_high_readWord : (dec c (readWord c n) true).verb.high = c.verbRd.high :=
  dec_long_verb_high_enc_verb h _ _ _ true

theorem dec_verb_high_writeWord (d : Coef) : (dec c (writeWord c n d) true).verb.high = c.verbWr.high :=
  dec_long_verb_high_enc_verb h _ _ _ true

theorem dec_verb_high_shortWord (v : VerbId) (p : BitVec 8) : (dec c (shortWord c n v p) true).verb.high = v.high :=
  dec_long_verb_high_enc_verb h _ _ _ false

theorem dec_verb_high_longWord (v : VerbId) (p : BitVec 16) : (dec c (longWord c n v p) true).verb.high = v.high :=
  dec_long_verb_high_enc_verb h _ _ _ true

/-- A select carries its index in `payload[7:0]` (R90). -/
theorem dec_payload_selectWord (i : Index) : (dec c (selectWord c n i) true).payload.extractLsb' 0 8 = i := by
  rw [selectWord, dec_long_payload_enc_long h]
  simp [← BitVec.setWidth_eq_extractLsb']

theorem dec_payload_writeWord (d : Coef) : (dec c (writeWord c n d) true).payload = d := by
  rw [writeWord, dec_long_payload_enc_long h]
  simp

end RowWords

end Sys2Proof

namespace Sys2Proof.Machine

/-! ### One exchange with the reference responder -/

/-- On an open channel with no answer replaced, an exchange is the reference responder's answer and new state. -/
theorem exchange_of_respond {s : State} {w r : Word} {p : Responder} (hs : Referenced s)
    (h : referenceRespond s.cfg s.responder w = (r, p)) :
    exchange s w = some (.resp r, answered s w r p) := by
  obtain ⟨hopen, hfar, hreplaced⟩ := hs
  simp [exchange, referenceExchange, hopen, hfar, hreplaced, h, answered, State.setResponder, State.dropReplaced,
    State.record]

theorem sendVerb_of_exchange {s t : State} {w : Word} {a : Answer} (h : exchange s w = some (a, t)) :
    sendVerb w s = .next t := by
  simp [sendVerb, h]

theorem sendVerb_of_respond {s : State} {w r : Word} {p : Responder} (hs : Referenced s)
    (h : referenceRespond s.cfg s.responder w = (r, p)) : sendVerb w s = .next (answered s w r p) :=
  sendVerb_of_exchange (exchange_of_respond hs h)

/-! ### Each verb sends the word of its row (R60, R90 to R92) -/

theorem exec_verbS (n : NodeId) (v : VerbId) (p : BitVec 8) (s : State) :
    exec (.verbS n v p) s = sendVerb (shortWord s.cfg n v p) s := rfl

theorem exec_verbL (n : NodeId) (v : VerbId) (p : BitVec 16) (s : State) :
    exec (.verbL n v p) s = sendVerb (longWord s.cfg n v p) s := rfl

theorem exec_coefSelect (n : NodeId) (i : Index) (s : State) :
    exec (.coefSelect n i) s = sendVerb (selectWord s.cfg n i) s := rfl

theorem exec_coefRead (n : NodeId) (s : State) : exec (.coefRead n) s = sendVerb (readWord s.cfg n) s := rfl

theorem exec_coefWrite (n : NodeId) (d : Coef) (s : State) :
    exec (.coefWrite n d) s = sendVerb (writeWord s.cfg n d) s := rfl

/-! ### The reference responder, rule by rule (R97 to R101) -/

section Respond

variable {c : Params} {w : Word} (r : Responder)

/-- R97. -/
theorem referenceRespond_select (hn : (dec c w true).node = c.coefNode)
    (hv : (dec c w true).verb.high = c.verbSel.high) :
    referenceRespond c r w = (0x00000000#32, { r with cidx := (dec c w true).payload.extractLsb' 0 8 }) := by
  simp [referenceRespond, recognise, hn, hv]

/-- R98: the verb ids differ in `verb[11:8]`, so the word is no select. -/
theorem referenceRespond_read (h : c.wellFormed = true) (hn : (dec c w true).node = c.coefNode)
    (hv : (dec c w true).verb.high = c.verbRd.high) :
    referenceRespond c r w = ((r.coef.read r.cidx.toNat).setWidth 32, { r with cidx := r.cidx + 1 }) := by
  obtain ⟨hSelRd, -, -⟩ := verbHigh_ne h
  simp [referenceRespond, recognise, hn, hv, hSelRd.symm]

/-- R99: the verb ids differ in `verb[11:8]`, so the word is no select and no read. -/
theorem referenceRespond_write (h : c.wellFormed = true) (hn : (dec c w true).node = c.coefNode)
    (hv : (dec c w true).verb.high = c.verbWr.high) :
    referenceRespond c r w =
      (0x00000000#32, { cidx := r.cidx + 1, coef := r.coef.write r.cidx.toNat (dec c w true).payload }) := by
  obtain ⟨-, hSelWr, hRdWr⟩ := verbHigh_ne h
  simp [referenceRespond, recognise, hn, hv, hSelWr.symm, hRdWr.symm]

/-- R100, a select or a write. -/
theorem referenceRespond_strayAck (hn : (dec c w true).node ≠ c.coefNode)
    (hv : (dec c w true).verb.high = c.verbSel.high ∨ (dec c w true).verb.high = c.verbWr.high) :
    referenceRespond c r w = (0x00000001#32, r) := by
  simp [referenceRespond, recognise, hn, hv]

/-- R100, a read: the verb ids differ in `verb[11:8]`, so the word is no select and no write. -/
theorem referenceRespond_strayRead (h : c.wellFormed = true) (hn : (dec c w true).node ≠ c.coefNode)
    (hv : (dec c w true).verb.high = c.verbRd.high) :
    referenceRespond c r w = (0x00000000#32, r) := by
  obtain ⟨hSelRd, -, hRdWr⟩ := verbHigh_ne h
  simp [referenceRespond, recognise, hn, hv, hSelRd.symm, hRdWr]

/-- R101: with no coefficient verb the node makes no difference. -/
theorem referenceRespond_other (hSel : (dec c w true).verb.high ≠ c.verbSel.high)
    (hRd : (dec c w true).verb.high ≠ c.verbRd.high) (hWr : (dec c w true).verb.high ≠ c.verbWr.high) :
    referenceRespond c r w = (0x00000000#32, r) := by
  by_cases hn : (dec c w true).node = c.coefNode <;>
    simp [referenceRespond, recognise, hn, hSel, hRd, hWr]

end Respond

/-- R17: the pointer counts modulo 256. -/
theorem index_succ_eq_ofNat (i : Index) : i + 1 = BitVec.ofNat 8 ((i.toNat + 1) % 256) :=
  BitVec.eq_of_toNat_eq (by simp)

/-! ### The obligations -/

/-- Settles O18: the select is the first rule the responder tries. -/
theorem referenceSelect : Obligations.ReferenceSelect := by
  intro s hs hc
  refine ⟨fun w hn hv => exchange_of_respond hs (referenceRespond_select s.responder hn hv), fun i => ?_⟩
  have hrespond := referenceRespond_select s.responder (dec_node_selectWord hc s.cfg.coefNode i)
    (dec_verb_high_selectWord hc s.cfg.coefNode i)
  rw [dec_payload_selectWord hc] at hrespond
  rw [exec_coefSelect, sendVerb_of_respond hs hrespond]

/-- Settles O19: the answer is formed from the pointer before it advances. -/
theorem referenceRead : Obligations.ReferenceRead := by
  intro s hs hc value after
  have hrespond : ∀ w : Word, (dec s.cfg w true).node = s.cfg.coefNode →
      (dec s.cfg w true).verb.high = s.cfg.verbRd.high → referenceRespond s.cfg s.responder w = (value, after) :=
    fun w hn hv => by rw [referenceRespond_read s.responder hc hn hv, index_succ_eq_ofNat]
  refine ⟨fun w hn hv => exchange_of_respond hs (hrespond w hn hv), ?_⟩
  rw [exec_coefRead]
  exact sendVerb_of_respond hs (hrespond _ (dec_node_readWord hc _) (dec_verb_high_readWord hc _))

/-- Settles O20: the responder's new state is the space written at the old pointer, for which read after write holds. -/
theorem referenceWrite : Obligations.ReferenceWrite := by
  intro s hs hc hm stored
  have hstored : ∀ d : Coef, stored d
      { cidx := s.responder.cidx + 1, coef := s.responder.coef.write s.responder.cidx.toNat d } := fun d =>
    ⟨by simp, Memory.read_write_same _ _ d hm, fun j hj => Memory.read_write_other _ _ j d hj⟩
  refine ⟨fun w hn hv => ⟨_, hstored _, exchange_of_respond hs (referenceRespond_write s.responder hc hn hv)⟩,
    fun d => ⟨_, hstored d, ?_⟩⟩
  have hrespond := referenceRespond_write s.responder hc (dec_node_writeWord hc s.cfg.coefNode d)
    (dec_verb_high_writeWord hc s.cfg.coefNode d)
  rw [dec_payload_writeWord hc] at hrespond
  rw [exec_coefWrite, sendVerb_of_respond hs hrespond]

/-- Settles O21: each instruction's word carries its node, so it is one of the words of the first part. -/
theorem referenceWrongNode : Obligations.ReferenceWrongNode := by
  intro s hs hc
  refine ⟨fun w hn => ⟨fun hv => exchange_of_respond hs (referenceRespond_strayAck s.responder hn hv),
    fun hv => exchange_of_respond hs (referenceRespond_strayRead s.responder hc hn hv)⟩, fun n hn => ⟨?_, ?_, ?_⟩⟩
  · intro i
    rw [exec_coefSelect]
    exact sendVerb_of_respond hs (referenceRespond_strayAck s.responder (by rwa [dec_node_selectWord hc])
      (.inl (dec_verb_high_selectWord hc n i)))
  · intro d
    rw [exec_coefWrite]
    exact sendVerb_of_respond hs (referenceRespond_strayAck s.responder (by rwa [dec_node_writeWord hc])
      (.inr (dec_verb_high_writeWord hc n d)))
  · rw [exec_coefRead]
    exact sendVerb_of_respond hs (referenceRespond_strayRead s.responder hc (by rwa [dec_node_readWord hc])
      (dec_verb_high_readWord hc n))

/-- Settles O22: the form L reading finds `verb[11:8]` of VERB.S and VERB.L alike. -/
theorem referenceOtherVerbs : Obligations.ReferenceOtherVerbs := by
  intro s hs hc other
  have hrespond : ∀ w : Word, other (dec s.cfg w true).verb.high →
      referenceRespond s.cfg s.responder w = (0x00000000#32, s.responder) :=
    fun w ⟨hSel, hRd, hWr⟩ => referenceRespond_other s.responder hSel hRd hWr
  refine ⟨fun w hv => exchange_of_respond hs (hrespond w hv), fun n v hv => ⟨fun p => ?_, fun p => ?_⟩⟩
  · rw [exec_verbS]
    exact sendVerb_of_respond hs (hrespond _ (by rwa [dec_verb_high_shortWord hc]))
  · rw [exec_verbL]
    exact sendVerb_of_respond hs (hrespond _ (by rwa [dec_verb_high_longWord hc]))

end Sys2Proof.Machine

/-! O27 to O33: the start of UPDATE and each step of its sequencer (42_coef_update.md R111 to R124). -/

namespace Sys2Proof.Machine

/-! ### The command of each step (R13, R113, R114, R119, R120) -/

theorem chCmd_of_idle {s : State} (h : s.stepReg = .idle) : s.chCmd = none := by
  simp [State.chCmd, h]

theorem chCmd_of_select {s : State} (h : s.stepReg = .sel1 ∨ s.stepReg = .sel2 ∨ s.stepReg = .sel3) :
    s.chCmd = some (selectWord s.cfg s.node s.idx) := by
  rcases h with h | h | h <;> simp [State.chCmd, h]

theorem chCmd_of_read {s : State} (h : s.stepReg = .rd1 ∨ s.stepReg = .rd2) :
    s.chCmd = some (readWord s.cfg s.node) := by
  rcases h with h | h <;> simp [State.chCmd, h]

theorem chCmd_of_write {s : State} (h : s.stepReg = .wr) : s.chCmd = some (writeWord s.cfg s.node s.new) := by
  simp [State.chCmd, h]

/-! ### The answer of each step -/

/-- R112: a step whose command is answered goes on from the answer and from the state after the exchange. -/
theorem sequencerStep_of_exchange {s t : State} {w : Word} {a : Answer} (hw : s.chCmd = some w)
    (he : exchange s w = some (a, t)) : sequencerStep s = .next (examine a t) := by
  simp [sequencerStep, hw, he]

theorem exchange_stepReg {s t : State} {w : Word} {a : Answer} (h : exchange s w = some (a, t)) :
    t.stepReg = s.stepReg := by
  obtain ⟨_, _, rfl, _⟩ := exchange_shape h
  rfl

theorem examine_rd1 {t : State} (h : t.stepReg = .rd1) (r : Word) : examine (.resp r) t = firstRead r t := by
  simp only [examine, h]

theorem examine_wr {t : State} (h : t.stepReg = .wr) (r : Word) : examine (.resp r) t = acknowledge r .sel3 t := by
  simp only [examine, h]

theorem examine_rd2 {t : State} (h : t.stepReg = .rd2) (r : Word) : examine (.resp r) t = readBack r t := by
  simp only [examine, h]

/-- R143: after a failure no command is requested. -/
theorem raiseFailure_ends (f : Failure) (t : State) :
    Ended t (raiseFailure f t) f.status ∧ (raiseFailure f t).chCmd = none :=
  ⟨⟨_, rfl⟩, chCmd_of_idle rfl⟩

/-- R113, R119, R121, R122: a step whose answer is acknowledged ends as rejected or moves on. -/
theorem sequencerStep_acknowledge {s t : State} {w r : Word} {next : SeqStep} (hw : s.chCmd = some w)
    (he : exchange s w = some (.resp r, t)) (hx : examine (.resp r) t = acknowledge r next t) :
    ∃ u, sequencerStep s = .next u ∧
      (r ≠ respOk → Ended t u .writeRejected ∧ u.chCmd = none) ∧
      (r = respOk → u = { t with stepReg := next }) := by
  refine ⟨acknowledge r next t, hx ▸ sequencerStep_of_exchange hw he, fun hr => ?_,
    fun hr => acknowledge_ok hr next t⟩
  rw [acknowledge_rejected hr]
  exact raiseFailure_ends .writeRejected t

/-! ### The start of UPDATE (R111) -/

theorem busy_iff {s : State} : s.busy = true ↔ s.stepReg ≠ .idle := by
  simp [State.busy]

/-- The ports with the four operands of an UPDATE driven on them (R16). -/
def Ports.withUpdate (p : Ports) (n i m v : BitVec 32) : Ports :=
  { p with updNode := n, updIndex := i, updMask := m, updValue := v }

theorem exec_update_of_idle {s : State} (h : s.stepReg = .idle) (n i m v : BitVec 32) :
    exec (.update n i m v) s = .next ((s.drive (s.ports.withUpdate n i m v)).latch
      (truncNode n) (truncIndex i) (truncCoef m) (truncCoef v)) :=
  if_neg fun hbusy => busy_iff.mp hbusy h

theorem exec_update_of_busy {s : State} (h : s.stepReg ≠ .idle) (n i m v : BitVec 32) :
    exec (.update n i m v) s = .next (s.drive (s.ports.withUpdate n i m v)) :=
  if_pos (busy_iff.mpr h)

/-! ### The obligations -/

/-- Settles O28: outside IDLE the step is one exchange, and the channel error is the first answer examined. -/
theorem channelErrorEndsUpdate : Obligations.ChannelErrorEndsUpdate := by
  intro s hstep hchannel
  rcases sequencerStep_cases s with ⟨hidle, _⟩ | ⟨w, hw, ⟨hnone, _⟩ | ⟨a, t, he, hnext⟩⟩
  · exact absurd hidle hstep
  · have hsome := (exchange_isSome s w).mpr hchannel
    simp [hnone] at hsome
  · refine ⟨w, a, t, examine a t, hw, he, hnext, by rw [examine_history, exchange_history he], ?_⟩
    rintro rfl
    exact raiseFailure_ends .channelError t

/-- Settles O29: the three steps send one word and acknowledge its answer, each with its own next step. -/
theorem selectSteps : Obligations.SelectSteps := by
  intro s t r next hnext he
  have hstep := exchange_stepReg he
  have hw : s.chCmd = some (selectWord s.cfg s.node s.idx) :=
    chCmd_of_select (hnext.imp And.left (Or.imp And.left And.left))
  refine sequencerStep_acknowledge hw he ?_
  rcases hnext with ⟨hs, rfl⟩ | ⟨hs, rfl⟩ | ⟨hs, rfl⟩ <;> simp only [examine, hstep, hs]

/-- Settles O30: whether the merge is what was read decides between the end and the write. -/
theorem firstReadStep : Obligations.FirstReadStep := by
  intro s t r hs hr he
  obtain ⟨-, -, -, -, -, -, hmask, hval, -⟩ := exchange_sameBlock he
  have hnext := sequencerStep_of_exchange (chCmd_of_read (.inl hs)) he
  rw [examine_rd1 ((exchange_stepReg he).trans hs)] at hnext
  refine ⟨firstRead r t, hnext, ?_⟩
  rw [← hmask, ← hval]
  by_cases hm : merge (coefOf r) t.mask t.val = coefOf r
  · rw [firstRead_skip hr hm]
    exact ⟨rfl, hm.symm, fun _ => ⟨chCmd_of_idle rfl, rfl⟩, fun hne => absurd rfl hne⟩
  · rw [firstRead_write hr hm]
    exact ⟨rfl, rfl, fun heq => absurd heq hm, fun _ => rfl⟩

/-- Settles O31: both reads examine the sentinel first. -/
theorem invalidReadEndsUpdate : Obligations.InvalidReadEndsUpdate := by
  intro s t hs he
  have hraise : examine (.resp respInvalid) t = raiseFailure .readInvalid t := by
    rcases hs with hs | hs
    · rw [examine_rd1 ((exchange_stepReg he).trans hs), firstRead_invalid rfl]
    · rw [examine_rd2 ((exchange_stepReg he).trans hs), readBack_invalid rfl]
  exact ⟨_, hraise ▸ sequencerStep_of_exchange (chCmd_of_read hs) he, raiseFailure_ends .readInvalid t⟩

/-- Settles O32: the write's answer is acknowledged as a select's is. -/
theorem writeStep : Obligations.WriteStep := fun _ _ r hs he =>
  sequencerStep_acknowledge (chCmd_of_write hs) he (examine_wr ((exchange_stepReg he).trans hs) r)

/-- Settles O33: the read-back is stored and not compared, and the exchange leaves CUR and NEW. -/
theorem readBackStep : Obligations.ReadBackStep := by
  intro s t r hs hr he
  obtain ⟨-, -, -, -, -, -, -, -, hcur, hnew, -⟩ := exchange_sameBlock he
  have hnext := sequencerStep_of_exchange (chCmd_of_read (.inr hs)) he
  rw [examine_rd2 ((exchange_stepReg he).trans hs), readBack_ok hr] at hnext
  exact ⟨hnext, hcur, hnew⟩

/-- Settles O27: BUSY decides whether the operands on the ports are latched. -/
theorem updateStart : Obligations.UpdateStart := by
  intro s n i m v
  exact ⟨fun hidle => ⟨startedStatus s, startedResult s, exec_update_of_idle hidle n i m v⟩,
    fun hbusy => exec_update_of_busy hbusy n i m v⟩

end Sys2Proof.Machine

/-! O34: raising a failure (60_exceptions.md R140, R143). -/

namespace Sys2Proof.Machine

theorem Failure.status_ne_ok (f : Failure) : f.status ≠ .ok := by
  cases f <;> decide

/-- R14: RESULT is valid after ST_OK only. -/
theorem updResult_of_status_ne_ok {s : State} (h : s.status ≠ .ok) : s.updResult = none :=
  if_neg fun hvalid => h hvalid.2

/-- Settles O34: the codes of R140 are read off failure by failure, and none of them is ST_OK's. -/
theorem raisingAFailure : Obligations.RaisingAFailure := by
  intro s f code
  obtain ⟨hended, hcmd⟩ := raiseFailure_ends f s
  have hcode : f.status.code = code := by cases f <;> rfl
  have hresult : (raiseFailure f s).updResult = none := updResult_of_status_ne_ok f.status_ne_ok
  exact ⟨hended, hcode, hcmd, hresult, rfl⟩

end Sys2Proof.Machine

/-! O56: the reset event as the caller's next request (70_reset_and_hazards.md R160 to R162). -/

namespace Sys2Proof.Machine

/-- R173: a request presented at once is taken off the list, whatever BUSY is. -/
theorem step_of_presentNow {s : State} {a : Action} {rest : List Request}
    (h : s.requests = ⟨a, false⟩ :: rest) : step s = present a (s.setRequests rest) := by
  simp [step, h]

theorem resetEvent_of_idle {s : State} (h : s.stepReg = .idle) : resetEvent s = .next s.clearBlock :=
  if_neg fun hbusy => busy_iff.mp hbusy h

theorem resetEvent_of_busy {s : State} (h : s.stepReg ≠ .idle) : resetEvent s = .refused .resetWhileBusy :=
  if_pos (busy_iff.mpr h)

/-- Settles O56: the event acts on the block alone, and BUSY decides whether it happens. -/
theorem step_resetEvent : Obligations.ResetEvent := by
  intro s rest hreq
  have hstep : step s = resetEvent (s.setRequests rest) := step_of_presentNow hreq
  constructor
  · intro hidle
    exact ⟨(s.setRequests rest).clearBlock, hstep.trans (resetEvent_of_idle hidle),
      rfl, rfl, chCmd_of_idle rfl, rfl, rfl, rfl⟩
  · intro hbusy
    exact hstep.trans (resetEvent_of_busy hbusy)

end Sys2Proof.Machine

/-! O3 to O12: the codec's round trips, the table's decoder and encoder, and the words of the coefficient verbs
(30_encoding.md R50 to R60, 40_verb_codec.md R70 to R76, 41_coef_verbs.md R90 to R92). -/

namespace Sys2Proof

/-! ### Verb ids: the four bits form L transmits and the eight it drops -/

theorem VerbId.high_append (x : BitVec 4) (y : BitVec 8) : VerbId.high (x ++ y) = x :=
  BitVec.extractLsb'_append_eq_left

theorem VerbId.low_append (x : BitVec 4) (y : BitVec 8) : VerbId.low (x ++ y) = y :=
  BitVec.extractLsb'_append_eq_right

theorem VerbId.high_append_low (v : VerbId) : v.high ++ v.low = v := by
  rw [VerbId.high, VerbId.low, BitVec.extractLsb'_append_extractLsb'_eq_extractLsb' (by rfl)]
  exact BitVec.extractLsb'_eq_self

/-- R5: verb ids whose low byte is zero are told apart by `verb[11:8]`. -/
theorem VerbId.eq_of_high {v w : VerbId} (hv : v.low = 0) (hw : w.low = 0) (h : v.high = w.high) : v = w := by
  rw [← high_append_low v, ← high_append_low w, h, hv, hw]

theorem VerbId.extractLsb'_setWidth_high (v : VerbId) : (v.setWidth 32).extractLsb' 8 4 = v.high := by
  refine BitVec.eq_of_toNat_eq ?_
  have hlt := v.isLt
  simp only [VerbId.high, BitVec.extractLsb'_toNat, BitVec.toNat_setWidth, Nat.shiftRight_eq_div_pow]
  omega

theorem VerbId.extractLsb'_setWidth_low (v : VerbId) : (v.setWidth 32).extractLsb' 0 8 = v.low := by
  refine BitVec.eq_of_toNat_eq ?_
  have hlt := v.isLt
  simp only [VerbId.low, BitVec.extractLsb'_toNat, BitVec.toNat_setWidth, Nat.shiftRight_eq_div_pow]
  omega

theorem toNat_append_eq_add {a b : Nat} (x : BitVec a) (y : BitVec b) :
    (x ++ y).toNat = x.toNat * 2 ^ b + y.toNat := by
  rw [BitVec.toNat_append, ← Nat.shiftLeft_add_eq_or_of_lt y.isLt, Nat.shiftLeft_eq]

/-! ### DECODE of ENCODE, in the form built and in the other one (R74, R76) -/

section RoundTrip

variable {c : Params} (h : c.wellFormed = true) (n v p : BitVec 32)
include h

/-- Below the node field stand `verb` and `payload` alone. -/
theorem enc_toNat_mod (wide : Bool) : (enc c n v p wide).toNat % 2 ^ 20 =
    if wide then v.toNat / 2 ^ 8 % 2 ^ 4 * 2 ^ 16 + p.toNat % 2 ^ 16
    else v.toNat % 2 ^ 12 * 2 ^ 8 + p.toNat % 2 ^ 8 := by
  obtain ⟨k, hk⟩ := Nat.exists_eq_add_of_le (nodeLsb_range h).1
  rw [enc_toNat h, hk, pow_add, Nat.mul_left_comm, Nat.mul_add_mod]
  apply Nat.mod_eq_of_lt
  split <;> omega

theorem dec_short_enc_short :
    dec c (enc c n v p false) false = ⟨n.setWidth 7, v.setWidth 12, (p.setWidth 8).setWidth 16⟩ := by
  have hlow := enc_toNat_mod h n v p false
  refine Fields.ext (dec_node_enc h n v p false false) (BitVec.eq_of_toNat_eq ?_) (BitVec.eq_of_toNat_eq ?_)
  · simp only [dec_verb_toNat, BitVec.toNat_setWidth, Bool.false_eq_true, if_false] at *
    omega
  · simp only [dec_payload_toNat, BitVec.toNat_setWidth, Bool.false_eq_true, if_false] at *
    omega

theorem dec_long_verb_enc (form : Bool) :
    (dec c (enc c n v p form) true).verb = v.extractLsb' 8 4 ++ 0#8 := by
  rw [← dec_long_verb_high_enc h n v p form]
  simp [dec, VerbId.high_append]

theorem dec_long_enc_long :
    dec c (enc c n v p true) true = ⟨n.setWidth 7, v.extractLsb' 8 4 ++ 0#8, p.setWidth 16⟩ :=
  Fields.ext (dec_node_enc h n v p true true) (dec_long_verb_enc h n v p true) (dec_long_payload_enc_long h n v p)

theorem dec_short_enc_long : dec c (enc c n v p true) false =
    ⟨n.setWidth 7, v.extractLsb' 8 4 ++ p.extractLsb' 8 8, (p.setWidth 8).setWidth 16⟩ := by
  have hlow := enc_toNat_mod h n v p true
  simp only [if_true] at hlow
  refine Fields.ext (dec_node_enc h n v p true false) (BitVec.eq_of_toNat_eq ?_) (BitVec.eq_of_toNat_eq ?_)
  · simp only [dec_verb_toNat, toNat_append_eq_add, BitVec.extractLsb'_toNat, Nat.shiftRight_eq_div_pow,
      Bool.false_eq_true, if_false]
    omega
  · simp only [dec_payload_toNat, BitVec.toNat_setWidth, Bool.false_eq_true, if_false]
    omega

theorem dec_long_enc_short : dec c (enc c n v p false) true =
    ⟨n.setWidth 7, v.extractLsb' 8 4 ++ 0#8, v.extractLsb' 0 8 ++ p.extractLsb' 0 8⟩ := by
  have hlow := enc_toNat_mod h n v p false
  simp only [Bool.false_eq_true, if_false] at hlow
  refine Fields.ext (dec_node_enc h n v p false true) (dec_long_verb_enc h n v p false) (BitVec.eq_of_toNat_eq ?_)
  simp only [dec_payload_toNat, toNat_append_eq_add, BitVec.extractLsb'_toNat, Nat.shiftRight_eq_div_pow, if_true]
  omega

end RoundTrip

/-! ### Operands for which a field loses no bit (R55, R72) -/

theorem setWidth_setWidth_of_lt {x : BitVec 32} {k : Nat} (h : x.toNat < 2 ^ k) :
    (x.setWidth k).setWidth 32 = x := by
  refine BitVec.eq_of_toNat_eq ?_
  rw [BitVec.toNat_setWidth, BitVec.toNat_setWidth, Nat.mod_eq_of_lt h, Nat.mod_eq_of_lt x.isLt]

/-- With `verb[7:0]` zero the verb fields of both forms are the same bits of the word. -/
theorem short_verb_eq_long_verb {v : BitVec 32} (h : v.extractLsb' 0 8 = 0#8) :
    ((v.setWidth 12).setWidth 32 <<< 8 : Word) = (v.extractLsb' 8 4).setWidth 32 <<< 16 := by
  have hlow : v.toNat % 2 ^ 8 = 0 := by simpa using congrArg BitVec.toNat h
  refine BitVec.eq_of_toNat_eq ?_
  simp only [BitVec.toNat_shiftLeft, BitVec.toNat_setWidth, BitVec.extractLsb'_toNat, Nat.shiftLeft_eq,
    Nat.shiftRight_eq_div_pow]
  omega

theorem enc_short_eq (c : Params) (n v p : BitVec 32) : enc c n v p false =
    (n.setWidth 7).setWidth 32 <<< c.nodeLsb ||| (v.setWidth 12).setWidth 32 <<< 8 ||| (p.setWidth 8).setWidth 32 :=
  rfl

theorem enc_long_eq (c : Params) (n v p : BitVec 32) : enc c n v p true =
    (n.setWidth 7).setWidth 32 <<< c.nodeLsb ||| (v.extractLsb' 8 4).setWidth 32 <<< 16 |||
      (p.setWidth 16).setWidth 32 :=
  rfl

/-- Settles O7: the two layouts place the same verb bits, and the payload fits in the shorter field. -/
theorem formsCoincide : Obligations.FormsCoincide := by
  intro c n v p hv hp
  have hshort : p.toNat < 2 ^ 8 := hp
  have hlong : p.toNat < 2 ^ 16 := by omega
  rw [enc_short_eq, enc_long_eq, short_verb_eq_long_verb hv, setWidth_setWidth_of_lt hshort,
    setWidth_setWidth_of_lt hlong]

/-- Settles O5: with valid operands no field loses a bit; bit 16 of the payload is lost in either form. -/
theorem encodeIsSingleExpression : Obligations.EncodeIsSingleExpression := by
  intro c _
  refine ⟨fun n v p wide hn hv hvalid => ?_, fun wide => ⟨0, 0, 0x10000#32, ?_⟩⟩
  · cases wide
    · have hp : p.toNat < 2 ^ 8 := by simpa using hvalid
      rw [enc_short_eq, setWidth_setWidth_of_lt hn, setWidth_setWidth_of_lt hv, setWidth_setWidth_of_lt hp]
    · obtain ⟨hlow, hp⟩ : v.extractLsb' 0 8 = 0#8 ∧ p.toNat < 2 ^ 16 := by simpa using hvalid
      rw [enc_long_eq, ← short_verb_eq_long_verb hlow, setWidth_setWidth_of_lt hn, setWidth_setWidth_of_lt hv,
        setWidth_setWidth_of_lt hp]
  · cases wide
    · simp [enc_short_eq]
    · simp [enc_long_eq]

/-! ### ENCODE of DECODE (R75) -/

/-- Above bit 19 both forms hold the node alone. -/
theorem enc_getLsbD_high (c : Params) (n v p : BitVec 32) (wide : Bool) {k : Nat} (h : 20 ≤ k) :
    (enc c n v p wide).getLsbD k =
      (decide (k < 32) && (decide (c.nodeLsb ≤ k) && decide (k - c.nodeLsb < 7) && n.getLsbD (k - c.nodeLsb))) := by
  cases wide
  · have hverb : ¬ k - 8 < 12 := by omega
    have hpayload : ¬ k < 8 := by omega
    simp [enc_short_getLsbD, hverb, hpayload]
  · have hverb : ¬ k - 16 < 4 := by omega
    have hpayload : ¬ k < 16 := by omega
    simp [enc_long_getLsbD, hverb, hpayload]

/-- Each covered bit stands in exactly one field of either form, and no uncovered one does. -/
theorem enc_dec {c : Params} (h : c.wellFormed = true) (w : Word) (wide : Bool) :
    enc c ((dec c w wide).node.setWidth 32) ((dec c w wide).verb.setWidth 32) ((dec c w wide).payload.setWidth 32) wide
      = w &&& ~~~c.zeroMask := by
  obtain ⟨hlo, -⟩ := nodeLsb_range h
  refine BitVec.eq_of_getLsbD_eq fun k hk => ?_
  rw [BitVec.getLsbD_and, BitVec.getLsbD_not, zeroMask_getLsbD]
  by_cases h20 : 20 ≤ k
  · have hlow : ¬ k < 20 := by omega
    rw [enc_getLsbD_high c _ _ _ wide h20, BitVec.getLsbD_setWidth, dec_node_getLsbD]
    by_cases hfield : c.nodeLsb ≤ k ∧ k - c.nodeLsb < 7
    · have hplace : c.nodeLsb + (k - c.nodeLsb) = k := by omega
      have hword : k - c.nodeLsb < 32 := by omega
      simp [hk, hlow, hfield, hplace, hword]
    · have hfield : (decide (c.nodeLsb ≤ k) && decide (k - c.nodeLsb < 7)) = false := by simpa using hfield
      simp [hfield, hlow]
  · have hnode : ¬ c.nodeLsb ≤ k := by omega
    have hlow : k < 20 := by omega
    cases wide
    · rw [enc_short_getLsbD]
      simp only [BitVec.getLsbD_setWidth, dec_short_verb_getLsbD, dec_short_payload_getLsbD]
      by_cases h8 : k < 8
      · simp [hk, hnode, hlow, h8]
      · have hplace : 8 + (k - 8) = k := by omega
        have hfield : k - 8 < 12 := by omega
        have hword : k - 8 < 32 := by omega
        simp [hk, hnode, hlow, h8, hplace, hfield, hword, Nat.not_lt.1 h8]
    · rw [enc_long_getLsbD]
      simp only [BitVec.getLsbD_setWidth, dec_long_verb_getLsbD, dec_long_payload_getLsbD]
      by_cases h16 : k < 16
      · simp [hk, hnode, hlow, h16]
      · have hplace : 8 + (8 + (k - 16)) = k := by omega
        have hfield : k - 16 < 4 ∧ 8 + (k - 16) < 12 ∧ 8 + (k - 16) < 32 := by omega
        simp [hk, hnode, hlow, h16, hplace, hfield, Nat.not_lt.1 h16]

theorem and_not_zeroMask {c : Params} {w : Word} (h : w &&& c.zeroMask = 0#32) : w &&& ~~~c.zeroMask = w := by
  calc w &&& ~~~c.zeroMask = (w &&& ~~~c.zeroMask) ||| (w &&& c.zeroMask) := by rw [h, BitVec.or_zero]
    _ = w := by rw [← BitVec.and_or_distrib_left, BitVec.or_comm, BitVec.or_not_self, BitVec.and_allOnes]

theorem enc_dec_of_covered {c : Params} (h : c.wellFormed = true) {w : Word} (hw : w &&& c.zeroMask = 0#32)
    (wide : Bool) :
    enc c ((dec c w wide).node.setWidth 32) ((dec c w wide).verb.setWidth 32) ((dec c w wide).payload.setWidth 32) wide
      = w := by
  rw [enc_dec h, and_not_zeroMask hw]

/-- Form L reads the low byte of the verb id as zero (R73). -/
theorem dec_long_verb_low (c : Params) (w : Word) : (dec c w true).verb.low = 0 := by
  simp [dec, VerbId.low_append]

/-- Form S reads a payload of eight bits (R73). -/
theorem dec_short_payload_setWidth (c : Params) (w : Word) :
    ((dec c w false).payload.setWidth 8).setWidth 32 = (dec c w false).payload.setWidth 32 := by
  refine BitVec.eq_of_toNat_eq ?_
  simp only [BitVec.toNat_setWidth, dec_payload_toNat, Bool.false_eq_true, if_false]
  omega

/-! ### The rows' words as DECODE reads them -/

section Rows

variable {c : Params} (h : c.wellFormed = true) (n : NodeId)
include h

theorem dec_shortWord (v : VerbId) (p : BitVec 8) : dec c (shortWord c n v p) false = ⟨n, v, p.setWidth 16⟩ := by
  rw [shortWord, dec_short_enc_short h]
  simp

theorem dec_longWord {v : VerbId} (hv : v.low = 0) (p : BitVec 16) : dec c (longWord c n v p) true = ⟨n, v, p⟩ := by
  have hverb : (v.setWidth 32).extractLsb' 8 4 ++ 0#8 = v := by
    rw [VerbId.extractLsb'_setWidth_high]
    conv_rhs => rw [← VerbId.high_append_low v, hv]
    rfl
  rw [longWord, dec_long_enc_long h, hverb]
  simp

theorem dec_selectWord (i : Index) : dec c (selectWord c n i) true = ⟨n, c.verbSel, i.setWidth 16⟩ := by
  have hword : selectWord c n i = longWord c n c.verbSel (i.setWidth 16) := by simp [selectWord, longWord]
  obtain ⟨hSel, -, -⟩ := verbLow_zero h
  rw [hword, dec_longWord h n hSel]

theorem dec_readWord : dec c (readWord c n) true = ⟨n, c.verbRd, c.probe⟩ := by
  obtain ⟨-, hRd, -⟩ := verbLow_zero h
  exact dec_longWord h n hRd c.probe

theorem dec_writeWord (d : Coef) : dec c (writeWord c n d) true = ⟨n, c.verbWr, d⟩ := by
  obtain ⟨-, -, hWr⟩ := verbLow_zero h
  exact dec_longWord h n hWr d

end Rows

/-! ### The row a form L word belongs to (R58) -/

theorem setWidth_high_zero (i : Index) : (i.setWidth 16).extractLsb' 8 8 = 0 := by
  refine BitVec.eq_of_toNat_eq ?_
  have hlt := i.isLt
  simp only [BitVec.extractLsb'_toNat, BitVec.toNat_setWidth, Nat.shiftRight_eq_div_pow, BitVec.toNat_ofNat,
    BitVec.ofNat_eq_ofNat]
  omega

theorem setWidth_setWidth_of_high_zero {p : BitVec 16} (h : p.extractLsb' 8 8 = 0) :
    (p.setWidth 8).setWidth 16 = p := by
  refine BitVec.eq_of_toNat_eq ?_
  have hhigh : p.toNat / 2 ^ 8 % 2 ^ 8 = 0 := by
    simpa [Nat.shiftRight_eq_div_pow] using congrArg BitVec.toNat h
  have hlt := p.isLt
  simp only [BitVec.toNat_setWidth]
  omega

theorem namedVerb_eq_false {c : Params} {x : BitVec 4} {p : BitVec 16} : c.namedVerb x p = false ↔
    ¬ (x = c.verbSel.high ∧ p.extractLsb' 8 8 = 0) ∧ ¬ (x = c.verbRd.high ∧ p = c.probe) ∧ x ≠ c.verbWr.high := by
  simp [Params.namedVerb, and_assoc]

section DecodeLong

variable {c : Params} (h : c.wellFormed = true) (n : NodeId)

theorem decodeLong_select (i : Index) : decodeLong c ⟨n, c.verbSel, i.setWidth 16⟩ = .coefSelect n i := by
  simp [decodeLong, setWidth_high_zero]

theorem decodeLong_other (v : VerbId) {p : BitVec 16} (hp : c.namedVerb v.high p = false) :
    decodeLong c ⟨n, v, p⟩ = .verbL n v p := by
  obtain ⟨hSel, hRd, hWr⟩ := namedVerb_eq_false.1 hp
  rw [decodeLong, if_neg hSel, if_neg hRd, if_neg hWr]

include h

theorem decodeLong_read : decodeLong c ⟨n, c.verbRd, c.probe⟩ = .coefRead n := by
  obtain ⟨hSelRd, -, -⟩ := verbHigh_ne h
  simp [decodeLong, hSelRd.symm]

theorem decodeLong_write (d : Coef) : decodeLong c ⟨n, c.verbWr, d⟩ = .coefWrite n d := by
  obtain ⟨-, hSelWr, hRdWr⟩ := verbHigh_ne h
  simp [decodeLong, hSelWr.symm, hRdWr.symm]

end DecodeLong

theorem decode_short {c : Params} {w : Word} (hw : w &&& c.zeroMask = 0#32) : decode c ⟨w, false⟩ =
    .ok (.verbS (dec c w false).node (dec c w false).verb ((dec c w false).payload.setWidth 8)) := by
  simp [decode, hw]

theorem decode_long {c : Params} {w : Word} (hw : w &&& c.zeroMask = 0#32) :
    decode c ⟨w, true⟩ = .ok (decodeLong c (dec c w true)) := by
  simp [decode, hw]

theorem decode_uncovered {c : Params} {v : VerbWord} (hv : v.word &&& c.zeroMask ≠ 0#32) :
    decode c v = .error .uncoveredBits :=
  if_pos hv

/-- R54: what the decoder accepts has every uncovered bit zero. -/
theorem covered_of_decode_ok {c : Params} {v : VerbWord} {i : Instr} (h : decode c v = .ok i) :
    v.word &&& c.zeroMask = 0#32 := by
  by_contra hv
  rw [decode_uncovered hv] at h
  cases h

/-- Settles O8: each row's word reads as its own fields, and its fields as no other row. -/
theorem verbEncodingRoundTrip : Obligations.VerbEncodingRoundTrip := by
  intro c i v hc hi henc
  cases i with
  | verbS n v p =>
    cases henc
    rw [decode_short (w := shortWord c n v p) (enc_uncovered ..), dec_shortWord hc]
    simp
  | verbL n v p =>
    cases henc
    simp only [Instr.wellFormed, Bool.and_eq_true, beq_iff_eq, Bool.not_eq_true'] at hi
    rw [decode_long (w := longWord c n v p) (enc_uncovered ..), dec_longWord hc n hi.1, decodeLong_other n v hi.2]
  | coefSelect n i =>
    cases henc
    rw [decode_long (w := selectWord c n i) (enc_uncovered ..), dec_selectWord hc, decodeLong_select]
  | coefRead n =>
    cases henc
    rw [decode_long (w := readWord c n) (enc_uncovered ..), dec_readWord hc, decodeLong_read hc]
  | coefWrite n d =>
    cases henc
    rw [decode_long (w := writeWord c n d) (enc_uncovered ..), dec_writeWord hc, decodeLong_write hc]
  | encode _ _ _ _ => cases henc
  | decode _ _ => cases henc
  | update _ _ _ _ => cases henc

theorem encode_decodeLong {c : Params} (h : c.wellFormed = true) {f : Fields} (hf : f.verb.low = 0) :
    (decodeLong c f).wellFormed c = true ∧
      encode c (decodeLong c f) = some ⟨longWord c f.node f.verb f.payload, true⟩ := by
  obtain ⟨hSelLow, hRdLow, hWrLow⟩ := verbLow_zero h
  unfold decodeLong
  split_ifs with hSel hRd hWr
  · obtain ⟨hverb, hpayload⟩ := hSel
    refine ⟨rfl, ?_⟩
    simp only [encode, selectWord, longWord]
    rw [VerbId.eq_of_high hf hSelLow hverb]
    conv_rhs => rw [← setWidth_setWidth_of_high_zero hpayload]
    simp
  · obtain ⟨hverb, hpayload⟩ := hRd
    refine ⟨rfl, ?_⟩
    rw [VerbId.eq_of_high hf hRdLow hverb, hpayload]
    rfl
  · refine ⟨rfl, ?_⟩
    rw [VerbId.eq_of_high hf hWrLow hWr]
    rfl
  · have hnamed : c.namedVerb f.verb.high f.payload = false := namedVerb_eq_false.2 ⟨hSel, hRd, hWr⟩
    exact ⟨by simp [Instr.wellFormed, hf, hnamed], rfl⟩

/-- Settles O9: the accepted word has no uncovered bit, so encoding its fields gives it back. -/
theorem decodedVerbsReencode : Obligations.DecodedVerbsReencode := by
  rintro c ⟨w, wide⟩ i hc hi
  have hw : w &&& c.zeroMask = 0#32 := covered_of_decode_ok hi
  have hback := enc_dec_of_covered hc hw wide
  cases wide
  · rw [decode_short hw] at hi
    cases hi
    exact ⟨rfl, by rw [encode, shortWord, dec_short_payload_setWidth, hback]⟩
  · rw [decode_long hw] at hi
    cases hi
    obtain ⟨hwf, henc⟩ := encode_decodeLong hc (dec_long_verb_low c w)
    exact ⟨hwf, by rw [henc, longWord, hback]⟩

/-- Settles O3: each form reads back the truncated operands, which are the operands where the form has room for them. -/
theorem fieldsRoundTrip : Obligations.FieldsRoundTrip := by
  intro c n v p hc
  refine ⟨dec_short_enc_short hc n v p, dec_long_enc_long hc n v p, fun hn hv hp => ?_, fun hn hv hlow hp => ?_⟩
  · simp only [dec_short_enc_short hc, BitVec.toNat_setWidth]
    omega
  · have hzero : v.toNat % 2 ^ 8 = 0 := by simpa using congrArg BitVec.toNat hlow
    simp only [dec_long_enc_long hc, BitVec.toNat_setWidth, toNat_append_eq_add, BitVec.extractLsb'_toNat,
      Nat.shiftRight_eq_div_pow, BitVec.toNat_ofNat]
    omega

/-- Settles O4: an encoded word has no uncovered bit to clear. -/
theorem wordRoundTrip : Obligations.WordRoundTrip := by
  intro c hc
  refine ⟨enc_dec hc, fun n v p form wide => enc_dec_of_covered hc (enc_uncovered c n v p form) wide, fun h => ?_,
    fun h => ?_⟩
  · rw [Params.zeroMask, h]; decide
  · rw [Params.zeroMask, h]; decide

theorem dec_node_form (c : Params) (w : Word) (a b : Bool) : (dec c w a).node = (dec c w b).node := by
  cases a <;> cases b <;> rfl

/-- Settles O6: the verb ids differ in the byte that form L reads as part of the payload. -/
theorem wrongFormReading : Obligations.WrongFormReading := by
  intro c hc
  refine ⟨fun n v p => ⟨dec_short_enc_long hc n v p, dec_long_enc_short hc n v p⟩, fun w => ?_⟩
  have hbyte : w.extractLsb' 8 8 = 0#8 ↔ w.toNat / 2 ^ 8 % 2 ^ 8 = 0 := by
    simp [← BitVec.toNat_inj, Nat.shiftRight_eq_div_pow]
  rw [hbyte]
  constructor
  · intro heq
    have hverb := congrArg (fun f => f.verb.toNat) heq
    simp only [dec_verb_toNat, Bool.false_eq_true, if_false, if_true] at hverb
    omega
  · intro hzero
    refine Fields.ext (dec_node_form c w false true) (BitVec.eq_of_toNat_eq ?_) (BitVec.eq_of_toNat_eq ?_)
    · simp only [dec_verb_toNat, Bool.false_eq_true, if_false, if_true]
      omega
    · simp only [dec_payload_toNat, Bool.false_eq_true, if_false, if_true]
      omega

theorem decode_eq_error_iff (c : Params) (v : VerbWord) (e : DecodeError) :
    decode c v = .error e ↔ e = .uncoveredBits ∧ v.word &&& c.zeroMask ≠ 0#32 := by
  by_cases hv : v.word &&& c.zeroMask = 0#32
  · obtain ⟨w, wide⟩ := v
    cases wide
    · simp [decode_short hv, hv]
    · simp [decode_long hv, hv]
  · simp [decode_uncovered hv, hv, eq_comm]

/-- R50: one 32-bit word is read in the form assumed for it, and nothing else is read. -/
theorem decodeBits_word (c : Params) {w : Nat} (h : w < 2 ^ 32) :
    decodeBits c 32 w = decode c ⟨BitVec.ofNat 32 w, assumedForm c (BitVec.ofNat 32 w)⟩ :=
  if_pos ⟨rfl, h⟩

theorem decodeBits_other (c : Params) {nbits w : Nat} (h : ¬(nbits = 32 ∧ w < 2 ^ 32)) :
    decodeBits c nbits w = .error .notOneWord :=
  if_neg h

/-- Settles O10: the refusals are the test of the uncovered bits and that of the length. -/
theorem decoderRefusals : Obligations.DecoderRefusals := by
  refine ⟨decode_eq_error_iff, fun c nbits w => ⟨?_, decodeBits_other c⟩⟩
  rintro hrefused ⟨rfl, hw⟩
  rw [decodeBits_word c hw, decode_eq_error_iff] at hrefused
  exact absurd hrefused.1 (by decide)

/-- Settles O11: the decoder computes. -/
theorem rowWordsDecode : Obligations.RowWordsDecode := by
  refine ⟨?_, ?_, ?_, ?_, ?_⟩ <;> rfl

/-- Settles O12: a select's payload fits in eight bits and its verb id has the low byte zero, so the forms coincide. -/
theorem coefficientWordFields : Obligations.CoefficientWordFields := by
  intro c n hc
  have hindex : ∀ i : Index, i.setWidth 16 = 0#8 ++ i := fun i => by
    simp [BitVec.setWidth_eq_append]
  obtain ⟨hSel, -, -⟩ := verbLow_zero hc
  refine ⟨fun i => ⟨by rw [dec_selectWord hc, hindex], ?_⟩, dec_readWord hc n, dec_writeWord hc n⟩
  refine (formsCoincide c _ _ _ ?_ ?_).symm
  · rw [VerbId.extractLsb'_setWidth_low, hSel]
    rfl
  · have hlt := i.isLt
    rw [BitVec.toNat_setWidth]
    omega

end Sys2Proof

/-! O35 and O36: the merge, bit by bit and as laws (42_coef_update.md R117, R128). -/

namespace Sys2Proof.Machine

theorem merge_getLsbD (cur mask val : Coef) (b : Nat) (h : b < 16) :
    (merge cur mask val).getLsbD b = if mask.getLsbD b then val.getLsbD b else cur.getLsbD b := by
  rw [merge, BitVec.getLsbD_or, BitVec.getLsbD_and, BitVec.getLsbD_and, BitVec.getLsbD_not]
  cases mask.getLsbD b <;> simp [h]

/-- Settles O35: the mask chooses one of the two terms of the merge. -/
theorem mergeBitByBit : Obligations.MergeBitByBit := merge_getLsbD

theorem merge_and_not_mask (cur mask val : Coef) : merge cur mask val &&& ~~~mask = cur &&& ~~~mask := by
  refine BitVec.eq_of_getLsbD_eq fun b hb => ?_
  rw [BitVec.getLsbD_and, BitVec.getLsbD_and, BitVec.getLsbD_not, merge_getLsbD _ _ _ _ hb]
  cases mask.getLsbD b <;> simp

theorem merge_and_mask (cur mask val : Coef) : merge cur mask val &&& mask = val &&& mask := by
  refine BitVec.eq_of_getLsbD_eq fun b hb => ?_
  rw [BitVec.getLsbD_and, BitVec.getLsbD_and, merge_getLsbD _ _ _ _ hb]
  cases mask.getLsbD b <;> simp

theorem merge_merge (cur mask val : Coef) : merge (merge cur mask val) mask val = merge cur mask val := by
  refine BitVec.eq_of_getLsbD_eq fun b hb => ?_
  rw [merge_getLsbD _ _ _ _ hb, merge_getLsbD _ _ _ _ hb]
  cases mask.getLsbD b <;> simp

theorem merge_eq_cur_iff (cur mask val : Coef) : merge cur mask val = cur ↔ (cur ^^^ val) &&& mask = 0#16 := by
  constructor
  · intro h
    refine BitVec.eq_of_getLsbD_eq fun b hb => ?_
    have hbit := merge_getLsbD cur mask val b hb
    rw [h] at hbit
    rw [BitVec.getLsbD_and, BitVec.getLsbD_xor, BitVec.getLsbD_zero]
    cases hm : mask.getLsbD b <;> simp_all
  · intro h
    refine BitVec.eq_of_getLsbD_eq fun b hb => ?_
    have hbit := congrArg (fun x => x.getLsbD b) h
    simp only [BitVec.getLsbD_and, BitVec.getLsbD_xor, BitVec.getLsbD_zero] at hbit
    rw [merge_getLsbD _ _ _ _ hb]
    cases hm : mask.getLsbD b <;> simp_all

theorem merge_mask_zero (cur val : Coef) : merge cur 0#16 val = cur :=
  (merge_eq_cur_iff cur 0#16 val).2 BitVec.and_zero

/-- Settles O36: each law is read off bit by bit. -/
theorem mergeLaws : Obligations.MergeLaws := by
  intro cur mask val
  refine ⟨merge_and_not_mask cur mask val, merge_and_mask cur mask val, ?_, merge_merge cur mask val,
    merge_eq_cur_iff cur mask val⟩
  rw [merge, merge, BitVec.and_assoc, BitVec.and_self]

end Sys2Proof.Machine

/-! O13 to O17 and O44 to O55: what one step runs, what it can do, and what every step keeps (00_scope.md section 4,
10_state.md sections 3 to 9, 60_exceptions.md R147, 70_reset_and_hazards.md R166 to R169). -/

namespace Sys2Proof.Machine

/-! ### What a step runs -/

/-- R173: a request is presented unless it waits while BUSY = 1. -/
theorem step_of_presented {s : State} {a : Action} {hold : Bool} {rest : List Request}
    (h : s.requests = ⟨a, hold⟩ :: rest) (hnow : hold = false ∨ s.busy = false) :
    step s = present a (s.setRequests rest) := by
  have hwait : ¬(hold = true ∧ s.busy = true) := by
    rcases hnow with h | h <;> simp [h]
  simp [step, h, hwait]

theorem step_of_waiting {s : State} {a : Action} {rest : List Request} (h : s.requests = ⟨a, true⟩ :: rest)
    (hbusy : s.busy = true) : step s = sequencerStep s := by
  simp [step, h, hbusy]

theorem step_of_no_request {s : State} (h : s.requests = []) : step s = sequencerStep s := by
  simp [step, h]

theorem present_word_of_decode {s : State} {v : VerbWord} {i : Instr} (h : decode s.cfg v = .ok i) :
    present (.word v) s = exec i s := by
  simp [present, h]

theorem present_word_of_uncovered {s : State} {v : VerbWord} (h : v.word &&& s.cfg.zeroMask ≠ 0#32) :
    present (.word v) s = sendVerb v.word s := by
  simp [present, decode_uncovered h]

theorem sequencerStep_of_idle {s : State} (h : s.stepReg = .idle) : sequencerStep s = .next s := by
  simp [sequencerStep, chCmd_of_idle h]

/-- Settles O13: a presented request is taken off the list, and a presented word is what it decodes to. -/
theorem stepRunsDecodedInstruction : Obligations.StepRunsDecodedInstruction := by
  intro s i hold rest hnow
  refine ⟨fun v hreq hdecode => ?_, fun hreq => step_of_presented hreq hnow⟩
  rw [step_of_presented hreq hnow]
  exact present_word_of_decode hdecode

/-- Settles O14: what the decoder reads fits in 32 bits, so the word placed is the word read. -/
theorem fetchWordRunsNext : Obligations.FetchWordRunsNext := by
  intro s w i hdecode
  have hw : w < 2 ^ 32 := by
    by_contra hw
    rw [decodeBits_other s.cfg fun h => hw h.2] at hdecode
    cases hdecode
  rw [decodeBits_word s.cfg hw] at hdecode
  have hstep : step (s.withFetchWord 32 w) =
      present (.word ⟨BitVec.ofNat 32 w, assumedForm s.cfg (BitVec.ofNat 32 w)⟩) (s.setChannel .opened) := by
    rw [State.withFetchWord, Nat.mod_eq_of_lt hw]
    exact step_of_presentNow rfl
  rw [hstep]
  exact present_word_of_decode hdecode

/-- Settles O15: each clause is one branch of the step. -/
theorem stepOtherwise : Obligations.StepOtherwise := by
  intro s
  refine ⟨step_of_no_request, fun a rest => step_of_waiting, fun rest => step_of_presentNow, sequencerStep_of_idle,
    fun c rest => step_of_presentNow, fun v rest hreq hv => ?_⟩
  rw [step_of_presentNow hreq]
  exact present_word_of_uncovered hv

/-! ### The caller's verbs on any channel -/

theorem exchange_of_hung {s : State} (h : s.channel = .hung) (w : Word) : exchange s w = none := by
  simp [exchange, h]

theorem sendVerb_of_hung {s : State} (h : s.channel = .hung) (w : Word) :
    sendVerb w s = .fault .channelNeverAnswers := by
  simp [sendVerb, exchange_of_hung h]

theorem exchange_of_answering {s : State} (h : s.channel ≠ .hung) (w : Word) : ∃ a t, exchange s w = some (a, t) := by
  obtain ⟨⟨a, t⟩, he⟩ := Option.isSome_iff_exists.1 ((exchange_isSome s w).2 h)
  exact ⟨a, t, he⟩

theorem sendsVerb_of_answering {s : State} (h : s.channel ≠ .hung) {i : Instr} {w : Word}
    (hexec : exec i s = sendVerb w s) : SendsVerb s i w := by
  obtain ⟨a, t, he⟩ := exchange_of_answering h w
  exact ⟨a, t, hexec.trans (sendVerb_of_exchange he), he, exchange_history he, exchange_sameBlock he⟩

/-- Settles O16: each verb sends its row's word, and a channel that is not hung answers. -/
theorem verbsExchangeOnce : Obligations.VerbsExchangeOnce := fun s n h =>
  ⟨fun v p => sendsVerb_of_answering h (exec_verbS n v p s), fun v p => sendsVerb_of_answering h (exec_verbL n v p s),
    fun i => sendsVerb_of_answering h (exec_coefSelect n i s), sendsVerb_of_answering h (exec_coefRead n s),
    fun d => sendsVerb_of_answering h (exec_coefWrite n d s)⟩

/-- Settles O17: an exchange that is not answered is the fault, for a verb and for a step of the sequencer. -/
theorem hungChannelStops : Obligations.HungChannelStops := by
  intro s h
  refine ⟨fun _ _ _ => sendVerb_of_hung h _, fun _ _ _ => sendVerb_of_hung h _, fun _ _ => sendVerb_of_hung h _,
    fun _ => sendVerb_of_hung h _, fun _ _ => sendVerb_of_hung h _, fun hstep => ?_⟩
  rcases sequencerStep_cases s with ⟨hidle, -⟩ | ⟨w, -, ⟨-, hfault⟩ | ⟨a, t, he, -⟩⟩
  · exact absurd hidle hstep
  · exact hfault
  · rw [exchange_of_hung h] at he
    cases he

/-! ### What examining an answer can do outside IDLE (R112 to R124) -/

/-- The step that follows an acknowledged select or write (R113, R119, R121, R122). -/
def SeqStep.afterAck : SeqStep → Option SeqStep
  | .sel1 => some .rd1
  | .sel2 => some .wr
  | .wr => some .sel3
  | .sel3 => some .rd2
  | .idle => none
  | .rd1 => none
  | .rd2 => none

theorem examine_ack {s : State} {n : SeqStep} (h : s.stepReg.afterAck = some n) (r : Word) :
    examine (.resp r) s = acknowledge r n s := by
  cases hs : s.stepReg with
  | sel1 | sel2 | wr | sel3 =>
    rw [hs] at h
    cases h
    simp only [examine, hs]
  | idle | rd1 | rd2 =>
    rw [hs] at h
    cases h

/-- The outcomes of one exchange of the sequencer, from the state after the exchange. -/
inductive Examined (s : State) : Answer → State → Prop
  /-- R112. -/
  | broken : Examined s .channelError (raiseFailure .channelError s)
  /-- R113, R119, R121, R122. -/
  | rejected {r : Word} {n : SeqStep} : s.stepReg.afterAck = some n → r ≠ respOk →
      Examined s (.resp r) (raiseFailure .writeRejected s)
  /-- R113, R119, R121, R122. -/
  | acknowledged {n : SeqStep} : s.stepReg.afterAck = some n → Examined s (.resp respOk) (s.moveTo n)
  /-- R115. -/
  | invalid : s.stepReg = .rd1 ∨ s.stepReg = .rd2 → Examined s (.resp respInvalid) (raiseFailure .readInvalid s)
  /-- R118, the write is skipped. -/
  | skipped {r : Word} : s.stepReg = .rd1 → r ≠ respInvalid → merge (coefOf r) s.mask s.val = coefOf r →
      Examined s (.resp r) ((s.setWork (coefOf r) (coefOf r)).finish .ok (coefOf r))
  /-- R116 to R118, the write is under way. -/
  | merged {r : Word} : s.stepReg = .rd1 → r ≠ respInvalid → merge (coefOf r) s.mask s.val ≠ coefOf r →
      Examined s (.resp r) ((s.setWork (coefOf r) (merge (coefOf r) s.mask s.val)).moveTo .sel2)
  /-- R124. -/
  | readBack {r : Word} : s.stepReg = .rd2 → r ≠ respInvalid → Examined s (.resp r) (s.finish .ok (coefOf r))

theorem examined_acknowledge {s : State} {n : SeqStep} (h : s.stepReg.afterAck = some n) (r : Word) :
    Examined s (.resp r) (acknowledge r n s) := by
  by_cases hr : r = respOk
  · subst hr
    rw [acknowledge_ok rfl]
    exact .acknowledged h
  · rw [acknowledge_rejected hr]
    exact .rejected h hr

theorem examined_firstRead {s : State} (h : s.stepReg = .rd1) (r : Word) : Examined s (.resp r) (firstRead r s) := by
  by_cases hr : r = respInvalid
  · subst hr
    rw [firstRead_invalid rfl]
    exact .invalid (.inl h)
  · by_cases hm : merge (coefOf r) s.mask s.val = coefOf r
    · rw [firstRead_skip hr hm]
      exact .skipped h hr hm
    · rw [firstRead_write hr hm]
      exact .merged h hr hm

theorem examined_readBack {s : State} (h : s.stepReg = .rd2) (r : Word) : Examined s (.resp r) (readBack r s) := by
  by_cases hr : r = respInvalid
  · subst hr
    rw [readBack_invalid rfl]
    exact .invalid (.inr h)
  · rw [readBack_ok hr]
    exact .readBack h hr

theorem examined_examine {s : State} (h : s.stepReg ≠ .idle) (a : Answer) : Examined s a (examine a s) := by
  cases a with
  | channelError => exact .broken
  | resp r =>
    cases hs : s.stepReg with
    | idle => exact absurd hs h
    | rd1 => exact examine_rd1 hs r ▸ examined_firstRead hs r
    | rd2 => exact examine_rd2 hs r ▸ examined_readBack hs r
    | sel1 | sel2 | wr | sel3 =>
      have hack : s.stepReg.afterAck = some _ := congrArg SeqStep.afterAck hs
      exact examine_ack hack r ▸ examined_acknowledge hack r

/-- R11: examining an answer leaves the operand latches. -/
theorem examine_latches (a : Answer) (s : State) : (examine a s).node = s.node ∧ (examine a s).idx = s.idx ∧
    (examine a s).mask = s.mask ∧ (examine a s).val = s.val := by
  obtain ⟨_, _, _, _, _, _, _, h⟩ := examine_shape a s
  simp [h]

/-! ### What a step can do -/

/-- The moves of the machine, from the state in which a request has been taken off the list or not. -/
inductive Moves (s : State) : State → Prop
  /-- The sequencer has nothing to do. -/
  | idle : Moves s s
  /-- One exchange of the sequencer. -/
  | sequencer {w : Word} {a : Answer} {t : State} : s.chCmd = some w → exchange s w = some (a, t) →
      Moves s (examine a t)
  /-- One exchange of the caller. -/
  | verb {w : Word} {a : Answer} {t : State} : exchange s w = some (a, t) → Moves s t
  /-- ENCODE, DECODE, or an UPDATE that is ignored. -/
  | ports (p : Ports) : Moves s (s.drive p)
  /-- The start of an UPDATE. -/
  | start (p : Ports) (n : NodeId) (i : Index) (m v : Coef) : s.stepReg = .idle → Moves s ((s.drive p).latch n i m v)
  /-- The reset event. -/
  | reset : s.stepReg = .idle → Moves s s.clearBlock
  /-- The channel is opened, closed, or stops answering. -/
  | channel (c : Channel) : Moves s (s.setChannel c)

theorem moves_of_sequencerStep {s t : State} (h : sequencerStep s = .next t) : Moves s t := by
  rcases sequencerStep_cases s with ⟨-, hn⟩ | ⟨w, hw, ⟨-, hn⟩ | ⟨a, u, he, hn⟩⟩
  · rw [hn] at h; cases h; exact .idle
  · rw [hn] at h; cases h
  · rw [hn] at h; cases h; exact .sequencer hw he

theorem moves_of_present {a : Action} {s t : State} (h : present a s = .next t) : Moves s t := by
  rcases present_cases h with ⟨w, b, he⟩ | ⟨p, rfl⟩ | ⟨hidle, p, n, i, m, v, rfl⟩ | ⟨hidle, rfl⟩ | ⟨c, rfl⟩ | hseq
  · exact .verb he
  · exact .ports p
  · exact .start p n i m v hidle
  · exact .reset hidle
  · exact .channel c
  · exact moves_of_sequencerStep hseq

/-- A step is one move, once the request it presents, if any, is off the list. -/
theorem moves_of_step {s t : State} (h : step s = .next t) : ∃ rs, Moves (s.setRequests rs) t := by
  rcases step_cases s with ⟨-, hn⟩ | ⟨r, rest, -, -, hn⟩
  · exact ⟨s.requests, moves_of_sequencerStep (hn.symm.trans h)⟩
  · exact ⟨rest, moves_of_present (hn.symm.trans h)⟩

theorem stepReg_ne_idle_of_chCmd {s : State} {w : Word} (h : s.chCmd = some w) : s.stepReg ≠ .idle := by
  intro hidle
  rw [chCmd_of_idle hidle] at h
  cases h

/-! ### What every step keeps -/

theorem Moves.cfg {s t : State} (h : Moves s t) : t.cfg = s.cfg := by
  cases h with
  | sequencer _ he => rw [examine_cfg, (exchange_sameBlock he).1]
  | verb he => exact (exchange_sameBlock he).1
  | _ => rfl

/-- Settles O52: no move touches the parameters. -/
theorem stepKeepsParameters : Obligations.StepKeepsParameters := by
  intro s t h
  obtain ⟨rs, hmoves⟩ := moves_of_step h
  exact hmoves.cfg

theorem Moves.history {s t : State} (h : Moves s t) : t.history = s.history ∨ ∃ e, t.history = e :: s.history := by
  cases h with
  | sequencer _ he => exact .inr ⟨_, by rw [examine_history, exchange_history he]⟩
  | verb he => exact .inr ⟨_, exchange_history he⟩
  | _ => exact .inl rfl

/-- Settles O53: the moves that exchange make one entry, the others none. -/
theorem stepAddsAtMostOneExchange : Obligations.StepAddsAtMostOneExchange := by
  intro s t h
  obtain ⟨rs, hmoves⟩ := moves_of_step h
  exact hmoves.history

/-- R14: examining an answer ends the UPDATE with DONE = 1. -/
theorem Examined.done {s t : State} {a : Answer} (h : Examined s a t) (hidle : t.stepReg = .idle) : t.done = true := by
  cases h with
  | acknowledged hn =>
    cases hidle
    cases hs : s.stepReg <;> simp [hs, SeqStep.afterAck] at hn
  | merged => cases hidle
  | _ => rfl

/-- Settles O54: only the sequencer moves STEP while an UPDATE runs, and no move but a start or a reset event touches
the latches. -/
theorem runningUpdateIsNotCut : Obligations.RunningUpdateIsNotCut := by
  intro s t hbusy h
  obtain ⟨rs, hmoves⟩ := moves_of_step h
  cases hmoves with
  | idle => exact ⟨rfl, rfl, rfl, rfl, fun hidle => absurd hidle hbusy⟩
  | sequencer hw he =>
    obtain ⟨hnode, hidx, hmask, hval⟩ := examine_latches _ _
    obtain ⟨-, -, -, -, hnode', hidx', hmask', hval', -⟩ := exchange_sameBlock he
    have hstep : _ ≠ SeqStep.idle := exchange_stepReg he ▸ hbusy
    exact ⟨hnode.trans hnode', hidx.trans hidx', hmask.trans hmask', hval.trans hval',
      (examined_examine hstep _).done⟩
  | verb he =>
    obtain ⟨-, -, -, -, hnode, hidx, hmask, hval, -⟩ := exchange_sameBlock he
    exact ⟨hnode, hidx, hmask, hval, fun hidle => absurd ((exchange_stepReg he).symm.trans hidle) hbusy⟩
  | ports p => exact ⟨rfl, rfl, rfl, rfl, fun hidle => absurd hidle hbusy⟩
  | start _ _ _ _ _ hidle => exact absurd hidle hbusy
  | reset hidle => exact absurd hidle hbusy
  | channel c => exact ⟨rfl, rfl, rfl, rfl, fun hidle => absurd hidle hbusy⟩

/-! ### The invariant -/

theorem sequencerInv_of_idle {s : State} (h : s.stepReg = .idle) : SequencerInv s :=
  ⟨fun hw => by simp [h, SeqStep.writing] at hw, fun hne => absurd h hne⟩

theorem sequencerInv_of_sameBlock {s t : State} (h : SameBlock s t) (hs : SequencerInv s) : SequencerInv t := by
  obtain ⟨-, -, -, -, -, -, hmask, hval, hcur, hnew, hstep, hdone, -⟩ := h
  simpa only [SequencerInv, hmask, hval, hcur, hnew, hstep, hdone] using hs

/-- An acknowledgment leads into the write from within it only. -/
theorem SeqStep.writing_of_afterAck {st n : SeqStep} (h : st.afterAck = some n) (hn : n.writing = true) :
    st.writing = true := by
  cases st with
  | sel1 =>
    cases h
    exact absurd hn (by decide)
  | sel2 | wr | sel3 => rfl
  | idle | rd1 | rd2 => cases h

theorem Examined.sequencerInv {s t : State} {a : Answer} (h : Examined s a t) (hstep : s.stepReg ≠ .idle)
    (hs : SequencerInv s) : SequencerInv t := by
  obtain ⟨hwriting, hdone⟩ := hs
  cases h with
  | acknowledged hn => exact ⟨fun hw => hwriting (SeqStep.writing_of_afterAck hn hw), fun _ => hdone hstep⟩
  | merged _ _ hm => exact ⟨fun _ => ⟨rfl, hm⟩, fun _ => hdone hstep⟩
  | _ => exact sequencerInv_of_idle rfl

theorem Moves.inv {s t : State} (h : Moves s t) (hs : s.Inv) : t.Inv := by
  obtain ⟨hwf, hseq⟩ := hs
  cases h with
  | idle => exact ⟨hwf, hseq⟩
  | sequencer hw he =>
    have hstep : _ ≠ SeqStep.idle := exchange_stepReg he ▸ stepReg_ne_idle_of_chCmd hw
    exact ⟨by rw [examine_responder]; exact exchange_wf he hwf,
      (examined_examine hstep _).sequencerInv hstep (sequencerInv_of_sameBlock (exchange_sameBlock he) hseq)⟩
  | verb he => exact ⟨exchange_wf he hwf, sequencerInv_of_sameBlock (exchange_sameBlock he) hseq⟩
  | ports p => exact ⟨hwf, hseq⟩
  | start p n i m v _ => exact ⟨hwf, fun hw => by simp [SeqStep.writing] at hw, fun _ => rfl⟩
  | reset _ => exact ⟨hwf, sequencerInv_of_idle rfl⟩
  | channel c => exact ⟨hwf, hseq⟩

/-- Settles O48: taking a request off the list touches nothing the invariant speaks of, and every move keeps it. -/
theorem stepKeepsInvariant : Obligations.StepKeepsInvariant := by
  intro s t hs h
  obtain ⟨rs, hmoves⟩ := moves_of_step h
  have hs' : (s.setRequests rs).Inv := hs
  exact hmoves.inv hs'

/-- Settles O51: in WR the invariant speaks of the write under way. -/
theorem writeIsNeverRedundant : Obligations.WriteIsNeverRedundant := by
  rintro s ⟨-, hwriting, -⟩ hstep
  obtain ⟨hnew, hne⟩ := hwriting (by rw [hstep]; rfl)
  refine ⟨chCmd_of_write hstep, hne, ?_, ?_⟩
  · rw [hnew, merge_and_not_mask]
  · rw [hnew, merge_and_mask]

/-! ### A select before every access (R19, R169) -/

/-- The steps of an access follow an acknowledged select, never an acknowledged write. -/
theorem SeqStep.select_of_afterAck {st n : SeqStep} (h : st.afterAck = some n)
    (hn : n = .rd1 ∨ n = .wr ∨ n = .rd2) : st = .sel1 ∨ st = .sel2 ∨ st = .sel3 := by
  cases st with
  | sel1 | sel2 | sel3 => simp
  | wr =>
    cases h
    exact absurd hn (by decide)
  | idle | rd1 | rd2 => cases h

theorem selectedInv_of_idle {s : State} (h : s.stepReg = .idle) : SelectedInv s := by
  simp [SelectedInv, h]

theorem sequencerStep_selectedInv {s t : State} (hs : SelectedInv s) (h : sequencerStep s = .next t) :
    SelectedInv t := by
  rcases sequencerStep_cases s with ⟨-, hn⟩ | ⟨w, hw, ⟨-, hn⟩ | ⟨a, u, he, hn⟩⟩
  · rw [hn] at h; cases h; exact hs
  · rw [hn] at h; cases h
  · rw [hn] at h
    cases h
    obtain ⟨hcfg, -, -, -, hnode, hidx, -⟩ := exchange_sameBlock he
    have hstep := exchange_stepReg he
    have hexamined := examined_examine (hstep ▸ stepReg_ne_idle_of_chCmd hw) a
    generalize examine a u = t at hexamined
    cases hexamined with
    | acknowledged hack =>
      intro haccess
      have hsel := SeqStep.select_of_afterAck hack haccess
      rw [hstep] at hsel
      rw [chCmd_of_select hsel] at hw
      cases hw
      simp [exchange_history he, hcfg, hnode, hidx]
    | merged => simp [SelectedInv]
    | _ => exact selectedInv_of_idle rfl

/-- Settles O50: a step that is about to access has just had its select acknowledged; a start goes to SEL1. -/
theorem selectBeforeEveryAccess : Obligations.SelectBeforeEveryAccess := by
  refine ⟨fun s t => sequencerStep_selectedInv, fun s t n i m v hs h => ?_⟩
  by_cases hidle : s.stepReg = .idle
  · rw [exec_update_of_idle hidle] at h
    cases h
    simp [SelectedInv]
  · rw [exec_update_of_busy hidle] at h
    cases h
    exact hs

/-! ### After reset -/

/-- Settles O49: nothing runs, no coefficient is listed, and R5's defaults meet its constraints. -/
theorem resetHasInvariant : Obligations.ResetHasInvariant :=
  ⟨⟨rfl, sequencerInv_of_idle rfl⟩, selectedInv_of_idle rfl, by decide,
    (step_of_no_request rfl).trans (sequencerStep_of_idle rfl)⟩

/-- Settles O55: a state in IDLE requests no exchange. -/
theorem resetState : Obligations.ResetState := ⟨rfl, rfl, rfl, chCmd_of_idle rfl⟩

/-! ### The sequencer and the ports (R11, R78) -/

/-- The far end sees the same in both states: the parameters, the channel, the responder, the replaced answers and the
draw counter. -/
def FarEndAgrees (s x : State) : Prop :=
  x.cfg = s.cfg ∧ x.channel = s.channel ∧ x.responder = s.responder ∧ x.replaced = s.replaced ∧ x.draws = s.draws

/-- The state `x` after the exchange `e`, which leaves at the far end what it holds in `t`. -/
def State.exchanged (x : State) (e : Exchange) (t : State) : State :=
  { x with responder := t.responder, replaced := t.replaced, history := e :: x.history, draws := t.draws }

/-- An exchange depends on what the far end sees and on nothing else. -/
theorem exchange_of_farEndAgrees {s x t : State} {w : Word} {a : Answer} (h : FarEndAgrees s x)
    (he : exchange s w = some (a, t)) : exchange x w = some (a, x.exchanged ⟨w, a⟩ t) := by
  obtain ⟨hcfg, hchannel, hresponder, hreplaced, hdraws⟩ := h
  unfold exchange at he ⊢
  rw [hchannel, hcfg]
  split at he
  · cases he
  · simp only [closedExchange, hcfg, hdraws, hresponder, Option.some.injEq] at he ⊢
    split at he <;> obtain ⟨rfl, rfl⟩ := Prod.mk.inj he
    · simp [State.exchanged, State.record, *]
    · simp [State.exchanged, State.record, State.setResponder, *]
  · split at he
    · simp only [referenceExchange, hcfg, hreplaced, hresponder, Option.some.injEq] at he ⊢
      split at he <;> obtain ⟨rfl, rfl⟩ := Prod.mk.inj he <;>
        simp [State.exchanged, State.record, State.dropReplaced, State.setResponder, *]
    · simp only [deviceExchange, hcfg, hdraws, hresponder, Option.some.injEq] at he ⊢
      obtain ⟨rfl, rfl⟩ := Prod.mk.inj he
      simp [State.exchanged, State.record, State.setResponder, *]

theorem acknowledge_drive (r : Word) (n : SeqStep) (p : Ports) (s : State) :
    acknowledge r n (s.drive p) = (acknowledge r n s).drive p := by
  unfold acknowledge
  split <;> rfl

theorem firstRead_drive (r : Word) (p : Ports) (s : State) : firstRead r (s.drive p) = (firstRead r s).drive p := by
  by_cases hr : r = respInvalid
  · rw [firstRead_invalid hr, firstRead_invalid hr]; rfl
  · by_cases hm : merge (coefOf r) s.mask s.val = coefOf r
    · rw [firstRead_skip hr hm, firstRead_skip hr (s := s.drive p) hm]; rfl
    · rw [firstRead_write hr hm, firstRead_write hr (s := s.drive p) hm]; rfl

theorem readBack_drive (r : Word) (p : Ports) (s : State) : readBack r (s.drive p) = (readBack r s).drive p := by
  unfold readBack
  split <;> rfl

/-- No answer is examined against the ports. -/
theorem examine_drive (a : Answer) (p : Ports) (s : State) : examine a (s.drive p) = (examine a s).drive p := by
  cases a with
  | channelError => rfl
  | resp r =>
    simp only [examine, State.drive_stepReg]
    cases s.stepReg with
    | idle => rfl
    | rd1 => exact firstRead_drive r p s
    | rd2 => exact readBack_drive r p s
    | sel1 | sel2 | wr | sel3 => exact acknowledge_drive r _ p s

theorem exchange_drive {s t : State} {w : Word} {a : Answer} (he : exchange s w = some (a, t)) (p : Ports) :
    exchange (s.drive p) w = some (a, t.drive p) := by
  have hagrees : FarEndAgrees s (s.drive p) := ⟨rfl, rfl, rfl, rfl, rfl⟩
  rw [exchange_of_farEndAgrees hagrees he]
  obtain ⟨r, rs, rfl, -⟩ := exchange_shape he
  rfl

theorem sequencerStep_drive {s t : State} (h : sequencerStep s = .next t) (p : Ports) :
    sequencerStep (s.drive p) = .next (t.drive p) := by
  rcases sequencerStep_cases s with ⟨hidle, hn⟩ | ⟨w, hw, ⟨-, hn⟩ | ⟨a, u, he, hn⟩⟩
  · rw [hn] at h; cases h
    exact sequencerStep_of_idle hidle
  · rw [hn] at h; cases h
  · rw [hn] at h; cases h
    rw [← examine_drive]
    exact sequencerStep_of_exchange hw (exchange_drive he p)

/-- Settles O44: neither the exchange nor the examination of its answer reads the ports. -/
theorem latchedOperandsOnly : Obligations.LatchedOperandsOnly := fun _ _ p h => sequencerStep_drive h p

/-- The sequencer's step leaves the ports: it would have done the same with the old ones driven again. -/
theorem sequencerStep_ports {s t : State} (h : sequencerStep s = .next t) : t.ports = s.ports := by
  have hdrive : sequencerStep s = .next (t.drive s.ports) := sequencerStep_drive h s.ports
  rw [h] at hdrive
  calc t.ports = (t.drive s.ports).ports := congrArg State.ports (Host.Outcome.next.inj hdrive)
    _ = s.ports := State.drive_ports _ _

/-- Settles O45: each codec operation drives the ports, which the step neither reads nor changes. -/
theorem codecDoesNotInterfere : Obligations.CodecDoesNotInterfere := by
  intro s t h
  have hports := sequencerStep_ports h
  have hcfg := (moves_of_sequencerStep h).cfg
  refine ⟨fun n v p wide => ⟨_, _, exec_encode n v p wide s, sequencerStep_drive h _, ?_, ?_⟩,
    fun w wide => ⟨_, _, exec_decode w wide s, sequencerStep_drive h _, ?_, ?_⟩⟩
  · rw [exec_encode, hports]
  · simp [State.encWord, hcfg]
  · rw [exec_decode, hports]
  · simp [State.decFields, hcfg]

end Sys2Proof.Machine

/-! O23 to O26: replaced answers, what follows from the reference responder's rules, the frame over the coefficient
space, and what a device is bound by (41_coef_verbs.md R93, R102, R103). -/

namespace Sys2Proof.Machine

/-! ### How a far end recognises the coefficient verbs' words (R95) -/

section Recognise

variable {c : Params} (h : c.wellFormed = true)
include h

theorem recognise_selectWord (n : NodeId) (i : Index) :
    recognise c (selectWord c n i) = if n = c.coefNode then .select i else .strayAck := by
  have hindex : (i.setWidth 16).extractLsb' 0 8 = i := by simp [← BitVec.setWidth_eq_extractLsb']
  simp [recognise, dec_selectWord h, hindex]

theorem recognise_readWord (n : NodeId) :
    recognise c (readWord c n) = if n = c.coefNode then .read else .strayRead := by
  obtain ⟨hSelRd, -, hRdWr⟩ := verbHigh_ne h
  simp [recognise, dec_readWord h, hSelRd.symm, hRdWr]

theorem recognise_writeWord (n : NodeId) (d : Coef) :
    recognise c (writeWord c n d) = if n = c.coefNode then .write d else .strayAck := by
  obtain ⟨-, hSelWr, hRdWr⟩ := verbHigh_ne h
  simp [recognise, dec_writeWord h, hSelWr.symm, hRdWr.symm]

theorem recogniseExact_selectWord (n : NodeId) (i : Index) :
    recogniseExact c (selectWord c n i) = if n = c.coefNode then .select i else .strayAck := by
  rw [recogniseExact_select ((coefficientWordFields c n h).1 i).1, recognise_selectWord h]

theorem recogniseExact_readWord (n : NodeId) :
    recogniseExact c (readWord c n) = if n = c.coefNode then .read else .strayRead := by
  rw [recogniseExact_read (dec_node_readWord h n), recognise_readWord h]

end Recognise

/-! ### Replaced answers (R102) -/

theorem exchange_of_replaced {s : State} {a : Answer} {rest : List (Option Answer)} (hopen : s.channel = .opened)
    (hfar : s.cfg.farEnd = .reference) (hreplaced : s.replaced = some a :: rest) (w : Word) :
    exchange s w = some (a, { s with
      responder := replacedRespond s.cfg s.responder w a, replaced := rest, history := ⟨w, a⟩ :: s.history
      draws := s.draws + 1 }) := by
  simp [exchange, referenceExchange, hopen, hfar, hreplaced, State.setResponder, State.dropReplaced, State.record]

theorem replacedRespond_of_not_read {c : Params} {w : Word} (h : recognise c w ≠ .read) (r : Responder) (a : Answer) :
    replacedRespond c r w a = r := by
  cases a with
  | channelError => rfl
  | resp _ =>
    cases hw : recognise c w with
    | read => exact absurd hw h
    | _ => simp [replacedRespond, hw]

theorem replacedRespond_of_read {c : Params} {w : Word} (h : recognise c w = .read) (r : Responder) {a : Answer}
    (ha : a ≠ .channelError) : replacedRespond c r w a = { r with cidx := r.cidx + 1 } := by
  cases a with
  | channelError => exact absurd rfl ha
  | resp _ => simp [replacedRespond, referenceRespond, h]

/-- Settles O23: of the three words only the read's is one whose replaced answer still moves the responder. -/
theorem replacedAnswers : Obligations.ReplacedAnswers := by
  intro s a rest i d hopen hfar hc hreplaced after
  have hexchange : ∀ w, exchange s w = some (a, after w (replacedRespond s.cfg s.responder w a)) :=
    exchange_of_replaced hopen hfar hreplaced
  have hkept : ∀ w, recognise s.cfg w ≠ .read → sendVerb w s = .next (after w s.responder) := fun w hw => by
    rw [sendVerb_of_exchange (hexchange w), replacedRespond_of_not_read hw]
  refine ⟨?_, hkept _ ?_, hkept _ ?_, fun ha => ?_⟩
  · rintro rfl w
    exact hexchange w
  · simp [recognise_selectWord hc]
  · simp [recognise_writeWord hc]
  · rw [exec_coefRead, sendVerb_of_exchange (hexchange _),
      replacedRespond_of_read (by simp [recognise_readWord hc]) _ ha]

/-! ### Consequences of the reference responder's rules (R103) -/

/-- R97, as what the next verb finds. -/
theorem exec_coefSelect_points {s : State} (hs : Referenced s) (hc : s.cfg.wellFormed = true) (j : Index) :
    ∃ t, exec (.coefSelect s.cfg.coefNode j) s = .next t ∧ Referenced t ∧ t.cfg = s.cfg ∧
      t.responder = { s.responder with cidx := j } :=
  ⟨_, (referenceSelect s hs hc).2 j, hs, rfl, rfl⟩

/-- R98, as what the next verb finds. -/
theorem exec_coefRead_answers {s : State} (hs : Referenced s) (hc : s.cfg.wellFormed = true) :
    ∃ t, exec (.coefRead s.cfg.coefNode) s = .next t ∧ Referenced t ∧ t.cfg = s.cfg ∧
      t.responder.cidx.toNat = (s.responder.cidx.toNat + 1) % 256 ∧ t.responder.coef = s.responder.coef ∧
      t.lastAnswer = some (.resp ((s.responder.coef.read s.responder.cidx.toNat).setWidth 32)) :=
  ⟨_, (referenceRead s hs hc).2, hs, rfl, by simp [answered], rfl, rfl⟩

/-- R99, as what the next verb finds. -/
theorem exec_coefWrite_stores {s : State} (hs : Referenced s) (hc : s.cfg.wellFormed = true)
    (hm : Memory.wf s.responder.coef = true) (d : Coef) :
    ∃ t, exec (.coefWrite s.cfg.coefNode d) s = .next t ∧ Referenced t ∧ t.cfg = s.cfg ∧
      t.responder.coef.read s.responder.cidx.toNat = d ∧ CoefsSameBut [s.responder.cidx.toNat] s t := by
  obtain ⟨p, ⟨-, hsame, hother⟩, hwrite⟩ := (referenceWrite s hs hc hm).2 d
  exact ⟨_, hwrite, hs, rfl, hsame, fun j hj => hother j (by simpa using hj)⟩

/-- Settles O24: each verb is run by its own rule, from the responder the verb before it left. -/
theorem referenceConsequences : Obligations.ReferenceConsequences := by
  intro s hs hc hm node i next
  refine ⟨?_, fun d => ?_, fun j d => ?_⟩
  · obtain ⟨t, ht, hst, hct, hcidx, hcoef, hfirst⟩ := exec_coefRead_answers hs hc
    obtain ⟨u, hu, -, -, -, -, hsecond⟩ := exec_coefRead_answers hst (hct ▸ hc)
    rw [hct] at hu
    rw [hcoef, hcidx] at hsecond
    exact ⟨t, u, ht, hu, hfirst, hsecond⟩
  · obtain ⟨t, ht, hst, hct, hcidx, hcoef, -⟩ := exec_coefRead_answers hs hc
    obtain ⟨u, hu, -, -, hstored, hother⟩ := exec_coefWrite_stores hst (hct ▸ hc) (hcoef ▸ hm) d
    rw [hct] at hu
    rw [hcidx] at hstored hother
    exact ⟨t, u, ht, hu, hstored, fun k hk => hcoef ▸ hother k hk⟩
  · obtain ⟨t, ht, hst, hct, hrt⟩ := exec_coefSelect_points hs hc j
    obtain ⟨u, hu, hsu, hcu, hstored, -⟩ := exec_coefWrite_stores hst (hct ▸ hc) (by rwa [hrt]) d
    rw [hct] at hu hcu
    obtain ⟨v, hv, hsv, hcv, hrv⟩ := exec_coefSelect_points hsu (hcu ▸ hc) j
    rw [hcu] at hv hcv
    obtain ⟨x, hx, -, -, -, -, hanswer⟩ := exec_coefRead_answers hsv (hcv ▸ hc)
    rw [hcv] at hx
    rw [hrt] at hstored
    rw [hrv, hstored] at hanswer
    exact ⟨t, u, v, x, ht, hu, hv, hx, hanswer⟩

/-! ### The frame of the verbs over the coefficient space -/

/-- The reference responder writes no coefficient but the one at its pointer, and only for a COEF_WRITE. -/
theorem referenceRespond_coef (c : Params) (r : Responder) (w : Word) :
    (referenceRespond c r w).2.coef = r.coef ∨
    ∃ d, recognise c w = .write d ∧ (referenceRespond c r w).2.coef = r.coef.write r.cidx.toNat d := by
  cases h : recognise c w with
  | write d => exact .inr ⟨d, rfl, by simp [referenceRespond, h]⟩
  | _ => exact .inl (by simp [referenceRespond, h])

/-- R102: a replaced answer writes no coefficient. -/
theorem replacedRespond_coef (c : Params) (r : Responder) (w : Word) (a : Answer) :
    (replacedRespond c r w a).coef = r.coef := by
  by_cases ha : a = .channelError
  · rw [ha]; rfl
  · by_cases hw : recognise c w = .read
    · rw [replacedRespond_of_read hw r ha]
    · rw [replacedRespond_of_not_read hw]

/-- With the reference responder an exchange writes no coefficient but the one at the pointer, and only for a
COEF_WRITE; replaced answers and a closed channel included. -/
theorem exchange_coef {s t : State} {w : Word} {a : Answer} (hfar : s.cfg.farEnd = .reference)
    (h : exchange s w = some (a, t)) : t.responder.coef = s.responder.coef ∨
      ∃ d, recognise s.cfg w = .write d ∧ t.responder.coef = s.responder.coef.write s.responder.cidx.toNat d := by
  cases hchannel : s.channel with
  | hung => simp [exchange, hchannel] at h
  | closed =>
    simp only [exchange, hchannel, closedExchange, hfar, Option.some.injEq] at h
    obtain ⟨-, rfl⟩ := Prod.mk.inj h
    exact .inl rfl
  | opened =>
    simp only [exchange, hchannel, hfar, referenceExchange, Option.some.injEq] at h
    split at h <;> obtain ⟨-, rfl⟩ := Prod.mk.inj h
    · exact .inl (replacedRespond_coef _ _ _ _)
    · exact referenceRespond_coef _ _ _

theorem coefsSameBut_pointer {s t : State} {w : Word} (hfar : s.cfg.farEnd = .reference)
    (h : sendVerb w s = .next t) : CoefsSameBut [s.responder.cidx.toNat] s t := by
  rcases sendVerb_cases w s with ⟨-, hf⟩ | ⟨a, u, he, hn⟩
  · rw [hf] at h; cases h
  · rw [hn] at h; cases h
    intro i hi
    rcases exchange_coef hfar he with hcoef | ⟨d, -, hcoef⟩
    · rw [hcoef]
    · rw [hcoef, Memory.read_write_other _ _ _ _ (by simpa using hi)]

theorem coefsSameBut_none {s t : State} {w : Word} (hfar : s.cfg.farEnd = .reference)
    (hw : ∀ d, recognise s.cfg w ≠ .write d) (h : sendVerb w s = .next t) : CoefsSameBut [] s t := by
  rcases sendVerb_cases w s with ⟨-, hf⟩ | ⟨a, u, he, hn⟩
  · rw [hf] at h; cases h
  · rw [hn] at h; cases h
    intro i _
    rcases exchange_coef hfar he with hcoef | ⟨d, hd, -⟩
    · rw [hcoef]
    · exact absurd hd (hw d)

/-- Settles O25: a select's and a read's words are recognised as no write. -/
theorem verbsCoefficientFrame : Obligations.VerbsCoefficientFrame := by
  intro s t n hfar hc
  refine ⟨fun i => coefsSameBut_none hfar fun d => ?_, coefsSameBut_none hfar fun d => ?_,
    fun d => coefsSameBut_pointer hfar, fun v p => coefsSameBut_pointer hfar, fun v p => coefsSameBut_pointer hfar⟩
  · rw [recognise_selectWord hc]; split <;> simp
  · rw [recognise_readWord hc]; split <;> simp

/-! ### A device (R93) -/

theorem exchange_of_deviced {s : State} (h : Deviced s) (w : Word) : exchange s w = some (deviceExchange s w) := by
  obtain ⟨hopen, hfar⟩ := h
  simp [exchange, hopen, hfar]

theorem deviceRespond_select {c : Params} {w : Word} {i : Index} (h : recogniseExact c w = .select i) (p : Responder)
    (t : Nat) (ha : (deviceRespond c p t w).1 = .resp respOk) : (deviceRespond c p t w).2.cidx = i := by
  simp only [deviceRespond, h] at ha ⊢
  simp [ha]

/-- R91, R93: what an answered read returns, and where it leaves the pointer. -/
theorem deviceRespond_read {c : Params} {w : Word} (h : recogniseExact c w = .read) (p : Responder) (t : Nat) {r : Word}
    (ha : (deviceRespond c p t w).1 = .resp r) :
    (r ≠ respInvalid → r.extractLsb' 0 16 = (deviceRespond c p t w).2.coef.read p.cidx.toNat) ∧
    (p.cidx ≠ 0xFF#8 → (deviceRespond c p t w).2.cidx = p.cidx + 1) := by
  cases hdraw : drawAnswer t w with
  | channelError => simp [deviceRespond, h, hdraw] at ha
  | resp q =>
    simp only [deviceRespond, h, hdraw] at ha ⊢
    refine ⟨fun hr => ?_, fun hp => if_neg hp⟩
    by_cases hq : q = respInvalid
    · rw [readAnswer, if_pos hq] at ha
      exact absurd (Answer.resp.inj ha ▸ hq) hr
    · rw [readAnswer, if_neg hq] at ha
      rw [← Answer.resp.inj ha]
      exact BitVec.extractLsb'_append_eq_right

theorem lastAnswer_of_exchange {s t : State} {w : Word} {a : Answer} (h : exchange s w = some (a, t)) :
    t.lastAnswer = some a := by
  simp [State.lastAnswer, exchange_history h]

/-- Settles O26: both words are recognised exactly, so they bind a device. -/
theorem deviceAnswers : Obligations.DeviceAnswers := by
  intro s hs hc
  refine ⟨fun i => ?_, ?_⟩
  · have he := exchange_of_deviced hs (selectWord s.cfg s.cfg.coefNode i)
    exact ⟨_, _, sendVerb_of_exchange he, lastAnswer_of_exchange he,
      deviceRespond_select (by simp [recogniseExact_selectWord hc]) _ _⟩
  · have he := exchange_of_deviced hs (readWord s.cfg s.cfg.coefNode)
    exact ⟨_, _, sendVerb_of_exchange he, lastAnswer_of_exchange he, fun r =>
      deviceRespond_read (by simp [recogniseExact_readWord hc]) _ _⟩

end Sys2Proof.Machine

/-! O37, O38, O41 to O43 and O57: one UPDATE as a whole, on every channel and with every far end
(42_coef_update.md R125 to R129, 10_state.md section 5, 70_reset_and_hazards.md R166). -/

namespace Sys2Proof.Machine

/-! ### Running the sequencer while the caller has nothing to do -/

/-- `k` steps of the machine, its state written out. -/
def run (k : Nat) (s : State) : Host.Outcome State Fault Refusal := Sys2Proof.core.run k s

theorem core_run (k : Nat) (s : State) : Sys2Proof.core.run k s = run k s := rfl

theorem run_succ {s t : State} (hreq : s.requests = []) (h : sequencerStep s = .next t) (k : Nat) :
    run (k + 1) s = run k t := by
  have hstep : Sys2Proof.core.step s = .next t := (step_of_no_request hreq).trans h
  simp only [run, Host.Core.run, hstep]
  rfl

theorem run_fault {s : State} {f : Fault} (hreq : s.requests = []) (h : sequencerStep s = .fault f) (k : Nat) :
    run (k + 1) s = .fault f := by
  have hstep : Sys2Proof.core.step s = .fault f := (step_of_no_request hreq).trans h
  simp only [run, Host.Core.run, hstep]
  rfl

/-- R151: with nothing to do the machine stays in IDLE. -/
theorem run_of_quiet {s : State} (h : Quiet s) (k : Nat) : run k s = .next s := by
  induction k with
  | zero => rfl
  | succ k ih => rw [run_succ h.2 (sequencerStep_of_idle h.1), ih]

theorem examine_requests_nil {s t : State} {w : Word} {a : Answer} (hreq : s.requests = [])
    (he : exchange s w = some (a, t)) : (examine a t).requests = [] := by
  obtain ⟨-, -, -, hrequests, -⟩ := exchange_sameBlock he
  rw [examine_requests, hrequests, hreq]

/-- The start of an UPDATE from an idle state. -/
theorem exec_update_started {s : State} (h : Quiet s) (n i m v : BitVec 32) :
    exec (.update n i m v) s = .next (started s n i m v) :=
  exec_update_of_idle h.1 n i m v

/-! ### The steps are the pseudocode (R125) -/

theorem exchangeThen_congr {s : State} {w : Word} {f g : Word → State → Host.Outcome State Fault Refusal}
    (h : ∀ r t, exchange s w = some (.resp r, t) → f r t = g r t) : exchangeThen w f s = exchangeThen w g s := by
  unfold exchangeThen
  split
  · rfl
  · rfl
  · next r t he => exact h r t he

/-- One step and the steps after it: the exchange, the channel error, or what the steps after it make of the answer. -/
theorem run_eq_exchangeThen {s : State} {w : Word} (hreq : s.requests = []) (hw : s.chCmd = some w) (k : Nat) :
    run (k + 1) s =
      exchangeThen w (fun r t => run k (examine (.resp r) t)) s := by
  cases he : exchange s w with
  | none =>
    have hfault : sequencerStep s = .fault .channelNeverAnswers := by simp [sequencerStep, hw, he]
    rw [run_fault hreq hfault]
    simp only [exchangeThen, he]
  | some p =>
    obtain ⟨a, t⟩ := p
    rw [run_succ hreq (sequencerStep_of_exchange hw he)]
    cases a with
    | resp r => simp only [exchangeThen, he]
    | channelError =>
      have hquiet : Quiet (examine .channelError t) := ⟨rfl, examine_requests_nil hreq he⟩
      simp only [exchangeThen, he, run_of_quiet hquiet]
      rfl

/-- A step of an UPDATE that runs alone: `l` is the state in which it was latched. -/
structure Running (l s : State) : Prop where
  cfg : s.cfg = l.cfg
  channel : s.channel = l.channel
  requests : s.requests = []
  node : s.node = l.node
  idx : s.idx = l.idx
  mask : s.mask = l.mask
  val : s.val = l.val

theorem Running.exchange {l s t : State} {w : Word} {a : Answer} (h : Running l s)
    (he : exchange s w = some (a, t)) : Running l t := by
  obtain ⟨hcfg, hchannel, -, hrequests, hnode, hidx, hmask, hval, -⟩ := exchange_sameBlock he
  exact ⟨hcfg.trans h.cfg, hchannel.trans h.channel, hrequests.trans h.requests, hnode.trans h.node,
    hidx.trans h.idx, hmask.trans h.mask, hval.trans h.val⟩

theorem Running.moveTo {l s : State} (h : Running l s) (n : SeqStep) : Running l (s.moveTo n) :=
  ⟨h.cfg, h.channel, h.requests, h.node, h.idx, h.mask, h.val⟩

theorem Running.setWork {l s : State} (h : Running l s) (c n : Coef) : Running l (s.setWork c n) :=
  ⟨h.cfg, h.channel, h.requests, h.node, h.idx, h.mask, h.val⟩

theorem quiet_raiseFailure {s : State} (h : s.requests = []) (f : Failure) : Quiet (raiseFailure f s) := ⟨rfl, h⟩

theorem quiet_finish {s : State} (h : s.requests = []) (st : Status) (r : Coef) : Quiet (s.finish st r) := ⟨rfl, h⟩

theorem running_started {s : State} (h : s.requests = []) (n i m v : BitVec 32) :
    Running (started s n i m v) (started s n i m v) :=
  ⟨rfl, rfl, h, rfl, rfl, rfl, rfl⟩

theorem Running.chCmd_select {l s : State} (h : Running l s)
    (hs : s.stepReg = .sel1 ∨ s.stepReg = .sel2 ∨ s.stepReg = .sel3) :
    s.chCmd = some (selectWord l.cfg l.node l.idx) := by
  rw [chCmd_of_select hs, h.cfg, h.node, h.idx]

theorem Running.chCmd_read {l s : State} (h : Running l s) (hs : s.stepReg = .rd1 ∨ s.stepReg = .rd2) :
    s.chCmd = some (readWord l.cfg l.node) := by
  rw [chCmd_of_read hs, h.cfg, h.node]

theorem Running.chCmd_write {l s : State} (h : Running l s) (hs : s.stepReg = .wr) :
    s.chCmd = some (writeWord l.cfg l.node s.new) := by
  rw [chCmd_of_write hs, h.cfg, h.node]

section Stages

variable {l s : State} {w : Word} (h : Running l s)
include h

/-- R113, R119, R121, R122: the pseudocode of a step whose answer is acknowledged, before what follows it. -/
theorem run_acknowledged {n : SeqStep} (hack : s.stepReg.afterAck = some n) (hw : s.chCmd = some w) {k : Nat}
    {g : State → Host.Outcome State Fault Refusal}
    (hg : ∀ t, Running l t → t.stepReg = n → t.new = s.new → run k t = g t) :
    run (k + 1) s = exchangeThen w (fun r t =>
      if r ≠ 0x00000000#32 then .next (raiseFailure .writeRejected t) else g (t.moveTo n)) s := by
  rw [run_eq_exchangeThen h.requests hw]
  refine exchangeThen_congr fun r t he => ?_
  have ht := h.exchange he
  rw [examine_ack ((exchange_stepReg he).symm ▸ hack)]
  by_cases hr : r = 0x00000000#32
  · obtain ⟨-, -, -, -, -, -, -, -, -, hnew, -⟩ := exchange_sameBlock he
    rw [acknowledge_ok hr, if_neg (not_not.2 hr)]
    exact hg _ (ht.moveTo n) rfl hnew
  · rw [acknowledge_rejected hr, if_pos hr]
    exact run_of_quiet (quiet_raiseFailure ht.requests _) k

/-- R115 to R118: the pseudocode of the first read, before the write. -/
theorem run_firstRead (hs : s.stepReg = .rd1) (hw : s.chCmd = some w) {k : Nat}
    {x : Word} {go : Word → Word → State → Host.Outcome State Fault Refusal}
    (hgo : ∀ r t, Running l t → t.stepReg = .sel2 → t.new = merge (coefOf r) l.mask l.val →
      run k t = exchangeThen x (go r) t) :
    run (k + 1) s = exchangeThen w (fun r t =>
      if r = 0xFFFFFFFF#32 then .next (raiseFailure .readInvalid t) else
      let cur := r.extractLsb' 0 16
      let new := (cur &&& ~~~l.mask) ||| (l.val &&& l.mask)
      let t := t.setWork cur new
      if new = cur then .next (t.finish .ok cur) else exchangeThen x (go r) (t.moveTo .sel2)) s := by
  rw [run_eq_exchangeThen h.requests hw]
  refine exchangeThen_congr fun r t he => ?_
  have ht := h.exchange he
  rw [examine_rd1 ((exchange_stepReg he).trans hs)]
  by_cases hr : r = 0xFFFFFFFF#32
  · rw [firstRead_invalid hr, if_pos hr]
    exact run_of_quiet (quiet_raiseFailure ht.requests _) k
  · rw [if_neg hr]
    rw [← ht.mask, ← ht.val] at hgo ⊢
    by_cases hm : merge (coefOf r) t.mask t.val = coefOf r
    · have hskip : firstRead r t =
          (t.setWork (coefOf r) (merge (coefOf r) t.mask t.val)).finish .ok (coefOf r) := by
        rw [firstRead_skip hr hm, hm]
      rw [hskip]
      exact (run_of_quiet (quiet_finish (ht.setWork _ _).requests _ _) k).trans (if_pos hm).symm
    · rw [firstRead_write hr hm]
      refine (hgo r _ ((ht.setWork _ _).moveTo .sel2) rfl rfl).trans ?_
      exact (if_neg hm).symm

/-- R115, R124: the pseudocode of the second read. -/
theorem run_readBack (hs : s.stepReg = .rd2) (hw : s.chCmd = some w) (k : Nat) :
    run (k + 1) s = exchangeThen w (fun r t =>
      if r = 0xFFFFFFFF#32 then .next (raiseFailure .readInvalid t)
      else .next (t.finish .ok (r.extractLsb' 0 16))) s := by
  rw [run_eq_exchangeThen h.requests hw]
  refine exchangeThen_congr fun r t he => ?_
  have ht := h.exchange he
  rw [examine_rd2 ((exchange_stepReg he).trans hs)]
  by_cases hr : r = 0xFFFFFFFF#32
  · rw [readBack_invalid hr, if_pos hr]
    exact run_of_quiet (quiet_raiseFailure ht.requests _) k
  · rw [readBack_ok hr, if_neg hr]
    exact run_of_quiet (quiet_finish ht.requests _ _) k

end Stages

/-- Settles O37: stage by stage, the steps from SEL1 are the lines of the block. -/
theorem updateRefinesPseudocode : Obligations.UpdateRefinesPseudocode := by
  intro s n i m v hs
  refine ⟨exec_update_started hs n i m v, ?_⟩
  have hstart := running_started hs.2 n i m v
  refine run_acknowledged hstart rfl rfl fun t ht hstep _ => ?_
  refine run_firstRead ht hstep (ht.chCmd_read (.inl hstep)) fun r t ht hstep hnew => ?_
  refine run_acknowledged ht (n := .wr) (hstep ▸ rfl) (ht.chCmd_select (.inr (.inl hstep))) fun t ht hstep hnew' => ?_
  refine run_acknowledged ht (n := .sel3) (hstep ▸ rfl) ?_ fun t ht hstep _ => ?_
  · rw [ht.chCmd_write hstep, hnew', hnew]
    rfl
  refine run_acknowledged ht (n := .rd2) (hstep ▸ rfl) (ht.chCmd_select (.inr (.inr hstep))) fun t ht hstep _ => ?_
  exact run_readBack ht hstep (ht.chCmd_read (.inr hstep)) 0

/-! ### Every UPDATE ends, and its exchanges are a row of the table (R127) -/

/-- From `s` the machine makes the exchanges `e`, oldest first, one a step, and has then ended in `u`. -/
def RunsTo (s u : State) (e : List Exchange) : Prop :=
  (∀ k, run (e.length + k) s = run k u) ∧ Quiet u ∧ u.done = true ∧ u.history = e.reverse ++ s.history

theorem runsTo_nil {u : State} (hquiet : Quiet u) (hdone : u.done = true) : RunsTo u u [] :=
  ⟨fun k => by rw [List.length_nil, Nat.zero_add], hquiet, hdone, rfl⟩

theorem RunsTo.cons {s t u : State} {w : Word} {a : Answer} {e : List Exchange} (hreq : s.requests = [])
    (hw : s.chCmd = some w) (he : exchange s w = some (a, t)) (h : RunsTo (examine a t) u e) :
    RunsTo s u (⟨w, a⟩ :: e) := by
  obtain ⟨hrun, hquiet, hdone, hhistory⟩ := h
  refine ⟨fun k => ?_, hquiet, hdone, ?_⟩
  · rw [List.length_cons, Nat.succ_add, run_succ hreq (sequencerStep_of_exchange hw he), hrun]
  · rw [hhistory, examine_history, exchange_history he]
    simp

/-- The steps left over when an UPDATE has ended change nothing. -/
theorem RunsTo.run_of_le {s u : State} {e : List Exchange} (h : RunsTo s u e) {k : Nat} (hk : e.length ≤ k) :
    run k s = .next u := by
  obtain ⟨hrun, hquiet, -⟩ := h
  obtain ⟨d, rfl⟩ := Nat.exists_eq_add_of_le hk
  rw [hrun, run_of_quiet hquiet]

/-- An exchange whose answer leads to IDLE is the last one. -/
theorem runsTo_ended {s t : State} {w : Word} {a : Answer} (hreq : s.requests = []) (hw : s.chCmd = some w)
    (he : exchange s w = some (a, t)) (hidle : (examine a t).stepReg = .idle) : RunsTo s (examine a t) [⟨w, a⟩] := by
  have hstep : t.stepReg ≠ .idle := exchange_stepReg he ▸ stepReg_ne_idle_of_chCmd hw
  exact .cons hreq hw he
    (runsTo_nil ⟨hidle, examine_requests_nil hreq he⟩ ((examined_examine hstep a).done hidle))

/-- An answer of a select or a write other than RESP_OK ends the UPDATE. -/
theorem examine_ackFails {t : State} {n : SeqStep} (hack : t.stepReg.afterAck = some n) {a : Answer}
    (ha : a ≠ .resp respOk) : AckFails a (examine a t).status ∧ (examine a t).stepReg = .idle := by
  cases a with
  | channelError => exact ⟨.inl ⟨rfl, rfl⟩, rfl⟩
  | resp r =>
    have hr : r ≠ respOk := fun h => ha (congrArg Answer.resp h)
    rw [examine_ack hack, acknowledge_rejected hr]
    exact ⟨.inr ⟨r, rfl, hr, rfl⟩, rfl⟩

section RunsTo

variable {l s : State} {w : Word} (h : Running l s) (hanswers : l.channel ≠ .hung)
include h hanswers

/-- A select or a write ends the UPDATE, or it is acknowledged and the next step is what is left to run. -/
theorem runsTo_acknowledged {n : SeqStep} (hack : s.stepReg.afterAck = some n) (hw : s.chCmd = some w) :
    (∃ a u, RunsTo s u [⟨w, a⟩] ∧ AckFails a u.status) ∨
    ∃ t, Running l t ∧ t.stepReg = n ∧ t.new = s.new ∧
      ∀ u e, RunsTo t u e → RunsTo s u (⟨w, .resp respOk⟩ :: e) := by
  obtain ⟨a, t, he⟩ := exchange_of_answering (h.channel ▸ hanswers) w
  have ht := h.exchange he
  rw [← exchange_stepReg he] at hack
  by_cases ha : a = .resp respOk
  · subst ha
    obtain ⟨-, -, -, -, -, -, -, -, -, hnew, -⟩ := exchange_sameBlock he
    refine .inr ⟨t.moveTo n, ht.moveTo n, rfl, hnew, fun u e hruns => .cons h.requests hw he ?_⟩
    rwa [examine_ack hack, acknowledge_ok rfl]
  · obtain ⟨hfails, hidle⟩ := examine_ackFails hack ha
    exact .inl ⟨a, _, runsTo_ended h.requests hw he hidle, hfails⟩

/-- The second read ends the UPDATE, with the read-back or as a failure. -/
theorem runsTo_readBack (hs : s.stepReg = .rd2) (hw : s.chCmd = some w) :
    ∃ a u, RunsTo s u [⟨w, a⟩] ∧
      (ReadFails a u.status ∨ ∃ q, a = .resp q ∧ q ≠ respInvalid ∧ u.status = .ok ∧ u.result = coefOf q) := by
  obtain ⟨a, t, he⟩ := exchange_of_answering (h.channel ▸ hanswers) w
  have ht := h.exchange he
  have hends := runsTo_ended h.requests hw he
  cases a with
  | channelError => exact ⟨_, _, hends rfl, .inl (.inl ⟨rfl, rfl⟩)⟩
  | resp q =>
    rw [examine_rd2 ((exchange_stepReg he).trans hs)] at hends
    by_cases hq : q = respInvalid
    · rw [readBack_invalid hq] at hends
      exact ⟨_, _, hends rfl, .inl (.inr ⟨congrArg Answer.resp hq, rfl⟩)⟩
    · rw [readBack_ok hq] at hends
      exact ⟨_, _, hends rfl, .inr ⟨q, rfl, hq, rfl, rfl⟩⟩

/-- The first read ends the UPDATE, as a failure or because the merge is what was read, or the write is under way. -/
theorem runsTo_firstRead (hs : s.stepReg = .rd1) (hw : s.chCmd = some w) :
    (∃ a u, RunsTo s u [⟨w, a⟩] ∧ ReadFails a u.status) ∨
    ∃ r, r ≠ respInvalid ∧
      ((merge (coefOf r) l.mask l.val = coefOf r ∧
        ∃ u, RunsTo s u [⟨w, .resp r⟩] ∧ u.status = .ok ∧ u.result = coefOf r) ∨
      (merge (coefOf r) l.mask l.val ≠ coefOf r ∧
        ∃ t, Running l t ∧ t.stepReg = .sel2 ∧ t.new = merge (coefOf r) l.mask l.val ∧
          ∀ u e, RunsTo t u e → RunsTo s u (⟨w, .resp r⟩ :: e))) := by
  obtain ⟨a, t, he⟩ := exchange_of_answering (h.channel ▸ hanswers) w
  have ht := h.exchange he
  have hends := runsTo_ended h.requests hw he
  cases a with
  | channelError => exact .inl ⟨_, _, hends rfl, .inl ⟨rfl, rfl⟩⟩
  | resp r =>
    have hx := examine_rd1 ((exchange_stepReg he).trans hs) r
    by_cases hr : r = respInvalid
    · rw [hx, firstRead_invalid hr] at hends
      exact .inl ⟨_, _, hends rfl, .inr ⟨congrArg Answer.resp hr, rfl⟩⟩
    · rw [← ht.mask, ← ht.val]
      refine .inr ⟨r, hr, ?_⟩
      by_cases hm : merge (coefOf r) t.mask t.val = coefOf r
      · rw [hx, firstRead_skip hr hm] at hends
        exact .inl ⟨hm, _, hends rfl, rfl, rfl⟩
      · refine .inr ⟨hm, _, (ht.setWork (coefOf r) _).moveTo .sel2, rfl, rfl,
          fun u e hruns => .cons h.requests hw he ?_⟩
        rwa [hx, firstRead_write hr hm]

end RunsTo

theorem runsTo_updateHistory {l : State} (h : Running l l) (hanswers : l.channel ≠ .hung) (hs : l.stepReg = .sel1) :
    ∃ u e, RunsTo l u e ∧ UpdateHistory l u e := by
  rcases runsTo_acknowledged h hanswers (n := .rd1) (hs ▸ rfl) (h.chCmd_select (.inl hs)) with
    ⟨a, u, hruns, hfails⟩ | ⟨t, ht, hstep, -, hruns₁⟩
  · exact ⟨u, _, hruns, .inl ⟨a, rfl, hfails⟩⟩
  rcases runsTo_firstRead ht hanswers hstep (ht.chCmd_read (.inl hstep)) with
    ⟨a, u, hruns, hfails⟩ | ⟨r, hr, ⟨hm, u, hruns, hok, hresult⟩ | ⟨hm, t, ht, hstep, hnew, hruns₂⟩⟩
  · exact ⟨u, _, hruns₁ u _ hruns, .inr (.inl ⟨a, rfl, hfails⟩)⟩
  · exact ⟨u, _, hruns₁ u _ hruns, .inr (.inr (.inl ⟨r, rfl, hr, hm, hok, hresult⟩))⟩
  have hruns₂ : ∀ u e, RunsTo t u e → RunsTo l u _ := fun u e hruns => hruns₁ u _ (hruns₂ u e hruns)
  rcases runsTo_acknowledged ht hanswers (n := .wr) (hstep ▸ rfl) (ht.chCmd_select (.inr (.inl hstep))) with
    ⟨a, u, hruns, hfails⟩ | ⟨t, ht, hstep, hnew', hruns₃⟩
  · exact ⟨u, _, hruns₂ u _ hruns, .inr (.inr (.inr ⟨r, hr, hm, .inl ⟨a, rfl, hfails⟩⟩))⟩
  have hw := ht.chCmd_write hstep
  rw [hnew', hnew] at hw
  rcases runsTo_acknowledged ht hanswers (n := .sel3) (hstep ▸ rfl) hw with
    ⟨a, u, hruns, hfails⟩ | ⟨t, ht, hstep, -, hruns₄⟩
  · exact ⟨u, _, hruns₂ u _ (hruns₃ u _ hruns), .inr (.inr (.inr ⟨r, hr, hm, .inr (.inl ⟨a, rfl, hfails⟩)⟩))⟩
  have hruns₄ : ∀ u e, RunsTo t u e → RunsTo l u _ := fun u e hruns => hruns₂ u _ (hruns₃ u _ (hruns₄ u e hruns))
  rcases runsTo_acknowledged ht hanswers (n := .rd2) (hstep ▸ rfl) (ht.chCmd_select (.inr (.inr hstep))) with
    ⟨a, u, hruns, hfails⟩ | ⟨t, ht, hstep, -, hruns₅⟩
  · exact ⟨u, _, hruns₄ u _ hruns, .inr (.inr (.inr ⟨r, hr, hm, .inr (.inr (.inl ⟨a, rfl, hfails⟩))⟩))⟩
  obtain ⟨a, u, hruns, hfails | ⟨q, rfl, hq, hok, hresult⟩⟩ :=
    runsTo_readBack ht hanswers hstep (ht.chCmd_read (.inr hstep))
  · exact ⟨u, _, hruns₄ u _ (hruns₅ u _ hruns),
      .inr (.inr (.inr ⟨r, hr, hm, .inr (.inr (.inr (.inl ⟨a, rfl, hfails⟩)))⟩))⟩
  · exact ⟨u, _, hruns₄ u _ (hruns₅ u _ hruns),
      .inr (.inr (.inr ⟨r, hr, hm, .inr (.inr (.inr (.inr ⟨q, rfl, hq, hok, hresult⟩)))⟩))⟩

theorem updateHistory_length {l u : State} {e : List Exchange} (h : UpdateHistory l u e) :
    1 ≤ e.length ∧ e.length ≤ 6 := by
  rcases h with ⟨a, rfl, -⟩ | ⟨a, rfl, -⟩ | ⟨r, rfl, -⟩ | ⟨r, -, -, ⟨a, rfl, -⟩ | ⟨a, rfl, -⟩ | ⟨a, rfl, -⟩ |
    ⟨a, rfl, -⟩ | ⟨q, rfl, -⟩⟩ <;> simp

/-- An UPDATE started from an idle state runs to its end. -/
theorem started_runsTo {s : State} (hs : Quiet s) (hanswers : s.channel ≠ .hung) (n i m v : BitVec 32) :
    ∃ u e, RunsTo (started s n i m v) u e ∧ UpdateHistory (started s n i m v) u e :=
  runsTo_updateHistory (running_started hs.2 n i m v) hanswers rfl

/-- Settles O38: each stage ends the UPDATE with a row of the table, or leads to the next stage. -/
theorem updateHistories : Obligations.UpdateHistories := by
  intro s n i m v hs hanswers
  obtain ⟨u, e, hruns, hrow⟩ := started_runsTo hs hanswers n i m v
  obtain ⟨hmin, hmax⟩ := updateHistory_length hrow
  have hrun := hruns.run_of_le le_rfl
  obtain ⟨-, ⟨hidle, -⟩, hdone, hhistory⟩ := hruns
  exact ⟨u, e, exec_update_started hs n i m v, hrun, hidle, hdone, hhistory, hmin, hmax, hrow⟩

/-! ### With the mask zero (R129 (a)) -/

theorem ackFails_ne_ok {a : Answer} {st : Status} (h : AckFails a st) : a ≠ .resp respOk ∧ st ≠ .ok := by
  rcases h with ⟨rfl, rfl⟩ | ⟨r, rfl, hr, rfl⟩
  · simp
  · simpa using hr

theorem readFails_ne_ok {a : Answer} {st : Status} (h : ReadFails a st) : st ≠ .ok := by
  rcases h with ⟨-, rfl⟩ | ⟨-, rfl⟩ <;> simp

/-- The rows of the table with a write need a merge that differs from what was read. -/
theorem updateHistory_of_mask_zero {l u : State} {e : List Exchange} (hm : l.mask = 0#16)
    (h : UpdateHistory l u e) :
    (∃ a, e = [⟨selectWord l.cfg l.node l.idx, a⟩] ∧ a ≠ .resp respOk ∧ u.status ≠ .ok) ∨
    (∃ a, e = [⟨selectWord l.cfg l.node l.idx, .resp respOk⟩, ⟨readWord l.cfg l.node, a⟩] ∧
      (u.status = .ok → ∃ r, a = .resp r ∧ u.result = coefOf r)) := by
  rcases h with ⟨a, rfl, hfails⟩ | ⟨a, rfl, hfails⟩ | ⟨r, rfl, -, -, -, hresult⟩ | ⟨r, -, hne, -⟩
  · exact .inl ⟨a, rfl, ackFails_ne_ok hfails⟩
  · exact .inr ⟨a, rfl, fun hok => absurd hok (readFails_ne_ok hfails)⟩
  · exact .inr ⟨_, rfl, fun _ => ⟨r, rfl, hresult⟩⟩
  · rw [hm] at hne
    exact absurd (merge_mask_zero _ _) hne

/-- Settles O57: with the mask zero the merge is what was read, so the first two exchanges are all. -/
theorem maskZeroSendsSelectAndRead : Obligations.MaskZeroSendsSelectAndRead := by
  intro s n i m v hs hanswers hm sel rd
  obtain ⟨u, e, hruns, hrow⟩ := started_runsTo hs hanswers n i m v
  have hstart := exec_update_started hs n i m v
  have ⟨_, ⟨hidle, _⟩, _, hhistory⟩ := hruns
  rcases updateHistory_of_mask_zero hm hrow with ⟨a, rfl, ha, -⟩ | ⟨a, rfl, -⟩
  · exact ⟨u, a, hstart, hruns.run_of_le (by simp), hidle, .inl ⟨ha, hhistory⟩⟩
  · exact ⟨u, a, hstart, hruns.run_of_le (by simp), hidle, .inr hhistory⟩

/-- A running UPDATE on a channel that never answers takes no step. -/
theorem run_started_of_hung {s : State} (hs : Quiet s) (hhung : s.channel = .hung) (n i m v : BitVec 32) (k : Nat) :
    run (k + 1) (started s n i m v) = .fault .channelNeverAnswers := by
  obtain ⟨-, -, -, -, -, hfault⟩ := hungChannelStops (started s n i m v) hhung
  exact run_fault (s := started s n i m v) hs.2 (hfault (by simp [started])) k

/-- Settles O41: where two steps answer, the channel answers, and the UPDATE is one of those O57 speaks of. -/
theorem maskZeroEndsInTwoExchanges : Obligations.MaskZeroEndsInTwoExchanges := by
  intro s u n i m v hs hm hrun
  have hanswers : s.channel ≠ .hung := fun hhung => by
    have hfault := run_started_of_hung hs hhung n i m v 1
    rw [core_run] at hrun
    rw [hrun] at hfault
    cases hfault
  obtain ⟨u', e, hruns, hrow⟩ := started_runsTo hs hanswers n i m v
  have ⟨_, ⟨hidle, _⟩, hdone, hhistory⟩ := hruns
  rcases updateHistory_of_mask_zero hm hrow with ⟨a, rfl, -, hstatus⟩ | ⟨a, rfl, hresult⟩
  · cases hrun.symm.trans (hruns.run_of_le (k := 2) (by simp))
    exact ⟨hidle, hdone, by simp [hhistory, started], fun hok => absurd hok hstatus⟩
  · cases hrun.symm.trans (hruns.run_of_le (k := 2) (by simp))
    refine ⟨hidle, hdone, by simp [hhistory, started], fun hok => ?_⟩
    obtain ⟨r, rfl, hlow⟩ := hresult hok
    exact ⟨r, by simp [State.lastAnswer, hhistory], hlow⟩

/-! ### A channel that is not open (R166) -/

/-- R90, R148: the word of a select is not acknowledged. -/
theorem closedAnswer_selectWord {c : Params} (h : c.wellFormed = true) (t : Nat) (n : NodeId) (i : Index) :
    closedAnswer c t (selectWord c n i) ≠ .resp respOk := by
  have hrefused : ∀ a : Answer, (if a = .resp respOk then .channelError else a) ≠ .resp respOk := fun a => by
    by_cases ha : a = .resp respOk <;> simp [ha]
  rw [closedAnswer, recogniseExact_selectWord h]
  by_cases hn : n = c.coefNode
  · rw [if_pos hn]
    exact hrefused _
  · rw [if_neg hn]
    exact hrefused _

theorem exchange_of_closed {s t : State} {w : Word} {a : Answer} (h : s.channel = .closed)
    (he : exchange s w = some (a, t)) : a = closedAnswer s.cfg s.draws w := by
  simp only [exchange, h, closedExchange, Option.some.injEq] at he
  split at he <;> exact (Prod.mk.inj he).1.symm

theorem sequencerStep_sel1_of_closed {s : State} (hclosed : s.channel = .closed) (hc : s.cfg.wellFormed = true)
    (hs : s.stepReg = .sel1) (hreq : s.requests = []) :
    ∃ u, sequencerStep s = .next u ∧ u.stepReg = .idle ∧ u.done = true ∧
      (u.status = .channelError ∨ u.status = .writeRejected) ∧ u.history.length = s.history.length + 1 := by
  have hw := chCmd_of_select (.inl hs)
  obtain ⟨a, t, he⟩ := exchange_of_answering (s := s) (by simp [hclosed]) (selectWord s.cfg s.node s.idx)
  have ha : a ≠ .resp respOk := exchange_of_closed hclosed he ▸ closedAnswer_selectWord hc _ _ _
  have hack : t.stepReg.afterAck = some .rd1 := congrArg SeqStep.afterAck ((exchange_stepReg he).trans hs)
  obtain ⟨hfails, hidle⟩ := examine_ackFails hack ha
  obtain ⟨-, -, hdone, hhistory⟩ := runsTo_ended hreq hw he hidle
  refine ⟨examine a t, sequencerStep_of_exchange hw he, hidle, hdone, ?_, by rw [hhistory]; simp⟩
  exact hfails.imp And.right fun ⟨_, _, _, hst⟩ => hst

/-- Settles O42: the first select is not acknowledged. -/
theorem closedChannelUpdate : Obligations.ClosedChannelUpdate := by
  intro s n i m v hs hclosed hc
  have hreq : (started s n i m v).requests = [] := hs.2
  obtain ⟨u, hstep, hend⟩ := sequencerStep_sel1_of_closed (s := started s n i m v) hclosed hc rfl hreq
  exact ⟨u, exec_update_started hs n i m v, (step_of_no_request hreq).trans hstep, hend⟩

/-! ### An UPDATE reads nothing an earlier one left (10_state.md section 5) -/

/-- `x` is `s` but for what stands on the ports and, where they are not yet written, for CUR and NEW. -/
def Forgets (s x : State) : Prop :=
  ∃ y p, x = y.drive p ∧ (y = s ∨ s.stepReg.writing = false ∧ ∃ c n, y = s.setWork c n)

theorem exchange_setWork {s t : State} {w : Word} {a : Answer} (he : exchange s w = some (a, t)) (c n : Coef) :
    exchange (s.setWork c n) w = some (a, t.setWork c n) := by
  have hagrees : FarEndAgrees s (s.setWork c n) := ⟨rfl, rfl, rfl, rfl, rfl⟩
  rw [exchange_of_farEndAgrees hagrees he]
  obtain ⟨r, rs, rfl, -⟩ := exchange_shape he
  rfl

/-- Only the write sends a working register. -/
theorem chCmd_setWork {s : State} (h : s.stepReg ≠ .wr) (c n : Coef) : (s.setWork c n).chCmd = s.chCmd := by
  unfold State.chCmd
  rw [State.setWork_stepReg]
  cases hs : s.stepReg with
  | wr => exact absurd hs h
  | _ => rfl

/-- Before the write CUR and NEW are overwritten or left, and read neither way. -/
theorem examine_setWork {t : State} (h : t.stepReg.writing = false) (a : Answer) (c n : Coef) :
    examine a (t.setWork c n) = examine a t ∨
    (examine a t).stepReg.writing = false ∧ examine a (t.setWork c n) = (examine a t).setWork c n := by
  cases a with
  | channelError => exact .inr ⟨rfl, rfl⟩
  | resp r =>
    cases hs : t.stepReg with
    | idle => exact .inr (by simp [examine, hs, SeqStep.writing])
    | sel1 =>
      have hack : t.stepReg.afterAck = some .rd1 := congrArg SeqStep.afterAck hs
      rw [examine_ack hack, examine_ack (s := t.setWork c n) hack]
      by_cases hr : r = respOk
      · rw [acknowledge_ok hr, acknowledge_ok hr]
        exact .inr ⟨rfl, rfl⟩
      · rw [acknowledge_rejected hr, acknowledge_rejected hr]
        exact .inr ⟨rfl, rfl⟩
    | rd1 =>
      rw [examine_rd1 hs, examine_rd1 (t := t.setWork c n) hs]
      by_cases hr : r = respInvalid
      · rw [firstRead_invalid hr, firstRead_invalid hr]
        exact .inr ⟨rfl, rfl⟩
      · rw [firstRead, firstRead, if_neg hr, if_neg hr]
        exact .inl rfl
    | sel2 | wr | sel3 | rd2 => simp [hs, SeqStep.writing] at h

theorem sequencerStep_forgets {s x t : State} (h : Forgets s x) (hstep : sequencerStep s = .next t) :
    ∃ y, sequencerStep x = .next y ∧ Forgets t y := by
  obtain ⟨y, p, rfl, rfl | ⟨hwriting, c, n, rfl⟩⟩ := h
  · exact ⟨_, sequencerStep_drive hstep p, _, p, rfl, .inl rfl⟩
  · rcases sequencerStep_cases s with ⟨hidle, hn⟩ | ⟨w, hw, ⟨-, hn⟩ | ⟨a, u, he, hn⟩⟩
    · rw [hn] at hstep; cases hstep
      have hstays : sequencerStep (s.setWork c n) = .next (s.setWork c n) := sequencerStep_of_idle hidle
      exact ⟨_, sequencerStep_drive hstays p, _, p, rfl, .inr ⟨hwriting, c, n, rfl⟩⟩
    · rw [hn] at hstep; cases hstep
    · rw [hn] at hstep; cases hstep
      have hne : s.stepReg ≠ .wr := fun hwr => by simp [hwr, SeqStep.writing] at hwriting
      have hw' : (s.setWork c n).chCmd = some w := (chCmd_setWork hne c n).trans hw
      refine ⟨_, sequencerStep_drive (sequencerStep_of_exchange hw' (exchange_setWork he c n)) p, _, p, rfl, ?_⟩
      rcases examine_setWork (exchange_stepReg he ▸ hwriting) a c n with heq | ⟨hnot, heq⟩
      · exact .inl heq
      · exact .inr ⟨hnot, c, n, heq⟩

theorem Forgets.requests {s x : State} (h : Forgets s x) : x.requests = s.requests := by
  obtain ⟨y, p, rfl, rfl | ⟨-, c, n, rfl⟩⟩ := h <;> rfl

/-- A step of the sequencer is a fault, or it leaves the caller's requests. -/
theorem sequencerStep_answers (s : State) : sequencerStep s = .fault .channelNeverAnswers ∨
    ∃ t, sequencerStep s = .next t ∧ t.requests = s.requests := by
  rcases sequencerStep_cases s with ⟨-, hn⟩ | ⟨w, -, ⟨-, hn⟩ | ⟨a, u, he, hn⟩⟩
  · exact .inr ⟨s, hn, rfl⟩
  · exact .inl hn
  · obtain ⟨-, -, -, hrequests, -⟩ := exchange_sameBlock he
    exact .inr ⟨_, hn, (examine_requests a u).trans hrequests⟩

theorem run_forgets {k : Nat} {s x u : State} (hreq : s.requests = []) (h : Forgets s x) (hrun : run k s = .next u) :
    ∃ y, run k x = .next y ∧ Forgets u y := by
  induction k generalizing s x with
  | zero =>
    cases hrun
    exact ⟨x, rfl, h⟩
  | succ k ih =>
    rcases sequencerStep_answers s with hfault | ⟨t, hstep, htreq⟩
    · rw [run_fault hreq hfault] at hrun
      cases hrun
    · rw [run_succ hreq hstep] at hrun
      obtain ⟨y, hy, hforgets⟩ := sequencerStep_forgets h hstep
      obtain ⟨z, hz, hend⟩ := ih (htreq.trans hreq) hforgets hrun
      exact ⟨z, (run_succ (h.requests.trans hreq) hy k).trans hz, hend⟩

/-- Settles O43: the start overwrites what an earlier UPDATE left but CUR and NEW, which no step before their writing
reads. -/
theorem updateForgetsEarlierUpdates : Obligations.UpdateForgetsEarlierUpdates := by
  intro s x n i m v hs hx hanswers hcfg hchannel hresponder hreplaced hhistory hdraws
  have hforgets : Forgets (started s n i m v) (started x n i m v) := by
    refine ⟨(started s n i m v).setWork x.cur x.new, (started x n i m v).ports, ?_, .inr ⟨rfl, _, _, rfl⟩⟩
    simp [started, State.setWork, State.drive, startedStatus, startedResult, hcfg, hchannel, hresponder, hreplaced,
      hhistory, hdraws, hs.2, hx.2]
  obtain ⟨u, e, hruns, hrow⟩ := started_runsTo hs hanswers n i m v
  have hrun := hruns.run_of_le (updateHistory_length hrow).2
  obtain ⟨z, hz, y, p, rfl, hy⟩ := run_forgets (s := started s n i m v) hs.2 hforgets hrun
  refine ⟨u, _, hrun, hz, ?_⟩
  rcases hy with rfl | ⟨-, c, n, rfl⟩
  · exact ⟨rfl, fun _ => rfl, rfl, rfl, rfl, rfl⟩
  · exact ⟨rfl, fun _ => rfl, rfl, rfl, rfl, rfl⟩

end Sys2Proof.Machine

/-! O39, O40, O46 and O47: one UPDATE, and the same one again, with the reference responder, and the two variants that
are false (42_coef_update.md R128 (d), 90_conflicts.md C2, 95_test_vectors.md section 6). -/

namespace Sys2Proof.Machine

/-! ### What the reference responder answers to the commands of an UPDATE -/

/-- A step of an UPDATE latched in `l`, with the reference responder in the state `p` at the far end. -/
structure Served (l s : State) (p : Responder) : Prop extends Running l s where
  referenced : Referenced s
  responder : s.responder = p

theorem Served.exchange {l s : State} {p q : Responder} {w r : Word} (h : Served l s p)
    (hq : referenceRespond l.cfg p w = (r, q)) :
    ∃ t, exchange s w = some (.resp r, t) ∧ Served l t q ∧ t.stepReg = s.stepReg ∧ t.new = s.new := by
  rw [← h.cfg, ← h.responder] at hq
  have he := exchange_of_respond h.referenced hq
  exact ⟨_, he, ⟨h.toRunning.exchange he, h.referenced, rfl⟩, rfl, rfl⟩

/-- What the sequencer does to the block does not reach the responder. -/
theorem Served.moveTo {l s : State} {p : Responder} (h : Served l s p) (n : SeqStep) : Served l (s.moveTo n) p :=
  ⟨h.toRunning.moveTo n, h.referenced, h.responder⟩

theorem Served.setWork {l s : State} {p : Responder} (h : Served l s p) (c n : Coef) : Served l (s.setWork c n) p :=
  ⟨h.toRunning.setWork c n, h.referenced, h.responder⟩

theorem Served.finish {l s : State} {p : Responder} (h : Served l s p) (st : Status) (r : Coef) :
    Served l (s.finish st r) p :=
  ⟨⟨h.cfg, h.channel, h.requests, h.node, h.idx, h.mask, h.val⟩, h.referenced, h.responder⟩

theorem coefOf_setWidth (x : Coef) : coefOf (x.setWidth 32) = x := by
  simp [coefOf, ← BitVec.setWidth_eq_extractLsb']

/-- A coefficient has the upper half of its response zero, so it is never the sentinel. -/
theorem setWidth_ne_respInvalid (x : Coef) : x.setWidth 32 ≠ respInvalid := by
  intro h
  have hlt := x.isLt
  have heq : x.toNat % 2 ^ 32 = 0xFFFFFFFF := by simpa [respInvalid] using congrArg BitVec.toNat h
  omega

section Served

variable {l s : State} {p : Responder} (h : Served l s p)
include h

/-- An acknowledged command leads to the next step. -/
theorem served_acknowledged {n : SeqStep} {w : Word} {q : Responder} (hack : s.stepReg.afterAck = some n)
    (hw : s.chCmd = some w) (hq : referenceRespond l.cfg p w = (respOk, q)) :
    ∃ t, Served l t q ∧ t.stepReg = n ∧ t.new = s.new ∧
      ∀ u e, RunsTo t u e → RunsTo s u (⟨w, .resp respOk⟩ :: e) := by
  obtain ⟨t, he, ht, hstep, hnew⟩ := h.exchange hq
  refine ⟨t.moveTo n, ht.moveTo n, rfl, hnew, fun u e hruns => .cons h.requests hw he ?_⟩
  rwa [examine_ack (hstep ▸ hack), acknowledge_ok rfl]

variable (hc : l.cfg.wellFormed = true) (hn : l.node = l.cfg.coefNode)
include hc hn

theorem served_select {n : SeqStep} (hs : s.stepReg = .sel1 ∨ s.stepReg = .sel2 ∨ s.stepReg = .sel3)
    (hack : s.stepReg.afterAck = some n) :
    ∃ t, Served l t { p with cidx := l.idx } ∧ t.stepReg = n ∧ t.new = s.new ∧
      ∀ u e, RunsTo t u e → RunsTo s u (⟨selectWord l.cfg l.node l.idx, .resp respOk⟩ :: e) := by
  refine served_acknowledged h hack (h.chCmd_select hs) ?_
  rw [referenceRespond, recognise_selectWord hc, if_pos hn]
  rfl

theorem served_write (hs : s.stepReg = .wr) :
    ∃ t, Served l t ⟨p.cidx + 1, p.coef.write p.cidx.toNat s.new⟩ ∧ t.stepReg = .sel3 ∧
      ∀ u e, RunsTo t u e → RunsTo s u (⟨writeWord l.cfg l.node s.new, .resp respOk⟩ :: e) := by
  have hrespond : referenceRespond l.cfg p (writeWord l.cfg l.node s.new) =
      (respOk, ⟨p.cidx + 1, p.coef.write p.cidx.toNat s.new⟩) := by
    rw [referenceRespond, recognise_writeWord hc, if_pos hn]
    rfl
  obtain ⟨t, ht, hstep, -, hruns⟩ := served_acknowledged h (n := .sel3) (hs ▸ rfl) (h.chCmd_write hs) hrespond
  exact ⟨t, ht, hstep, hruns⟩

omit h in
theorem referenceRespond_readWord : referenceRespond l.cfg p (readWord l.cfg l.node) =
    ((p.coef.read p.cidx.toNat).setWidth 32, { p with cidx := p.cidx + 1 }) := by
  rw [referenceRespond, recognise_readWord hc, if_pos hn]

/-- The first read, where the merge is what was read. -/
theorem served_skip (hs : s.stepReg = .rd1) {x : Coef} (hx : p.coef.read p.cidx.toNat = x)
    (hm : merge x l.mask l.val = x) :
    ∃ u, RunsTo s u [⟨readWord l.cfg l.node, .resp (x.setWidth 32)⟩] ∧ Served l u { p with cidx := p.cidx + 1 } ∧
      u.status = .ok ∧ u.result = x := by
  obtain ⟨t, he, ht, hstep, -⟩ := h.exchange (referenceRespond_readWord hc hn)
  rw [hx] at he
  have hends := runsTo_ended h.requests (h.chCmd_read (.inl hs)) he
  have hsame : merge (coefOf (x.setWidth 32)) t.mask t.val = coefOf (x.setWidth 32) := by
    rw [coefOf_setWidth, ht.mask, ht.val, hm]
  rw [examine_rd1 (hstep.trans hs), firstRead_skip (setWidth_ne_respInvalid x) hsame, coefOf_setWidth] at hends
  exact ⟨_, hends rfl, (ht.setWork x x).finish .ok x, rfl, rfl⟩

/-- The first read, where the merge differs from what was read. -/
theorem served_merge (hs : s.stepReg = .rd1) {x : Coef} (hx : p.coef.read p.cidx.toNat = x)
    (hm : merge x l.mask l.val ≠ x) :
    ∃ t, Served l t { p with cidx := p.cidx + 1 } ∧ t.stepReg = .sel2 ∧ t.new = merge x l.mask l.val ∧
      ∀ u e, RunsTo t u e → RunsTo s u (⟨readWord l.cfg l.node, .resp (x.setWidth 32)⟩ :: e) := by
  obtain ⟨t, he, ht, hstep, -⟩ := h.exchange (referenceRespond_readWord hc hn)
  rw [hx] at he
  have hdiffers : merge (coefOf (x.setWidth 32)) t.mask t.val ≠ coefOf (x.setWidth 32) := by
    rwa [coefOf_setWidth, ht.mask, ht.val]
  refine ⟨_, (ht.setWork x (merge x l.mask l.val)).moveTo .sel2, rfl, rfl,
    fun u e hruns => .cons h.requests (h.chCmd_read (.inl hs)) he ?_⟩
  rwa [examine_rd1 (hstep.trans hs), firstRead_write (setWidth_ne_respInvalid x) hdiffers, coefOf_setWidth, ht.mask,
    ht.val]

/-- The second read. -/
theorem served_readBack (hs : s.stepReg = .rd2) {x : Coef} (hx : p.coef.read p.cidx.toNat = x) :
    ∃ u, RunsTo s u [⟨readWord l.cfg l.node, .resp (x.setWidth 32)⟩] ∧ Served l u { p with cidx := p.cidx + 1 } ∧
      u.status = .ok ∧ u.result = x := by
  obtain ⟨t, he, ht, hstep, -⟩ := h.exchange (referenceRespond_readWord hc hn)
  rw [hx] at he
  have hends := runsTo_ended h.requests (h.chCmd_read (.inr hs)) he
  rw [examine_rd2 (hstep.trans hs), readBack_ok (setWidth_ne_respInvalid x), coefOf_setWidth] at hends
  exact ⟨_, hends rfl, ht.finish .ok x, rfl, rfl⟩

/-! ### The two UPDATEs the reference responder can see -/

/-- Where the merge is what the coefficient holds, a select and a read are all. -/
theorem served_update_skip (hs : s.stepReg = .sel1) {x : Coef} (hx : p.coef.read l.idx.toNat = x)
    (hm : merge x l.mask l.val = x) :
    ∃ u a, RunsTo s u [⟨selectWord l.cfg l.node l.idx, .resp respOk⟩, ⟨readWord l.cfg l.node, a⟩] ∧
      Served l u { p with cidx := l.idx + 1 } ∧ u.status = .ok ∧ u.result = x := by
  obtain ⟨t, ht, hstep, -, hruns⟩ := served_select h hc hn (n := .rd1) (.inl hs) (hs ▸ rfl)
  obtain ⟨u, hend, hu, hok, hresult⟩ := served_skip ht hc hn hstep hx hm
  exact ⟨u, _, hruns u _ hend, hu, hok, hresult⟩

/-- Where it differs, the merge is written to the selected coefficient and read back from it. -/
theorem served_update_write (hs : s.stepReg = .sel1) (hwf : Memory.wf p.coef = true) {x : Coef}
    (hx : p.coef.read l.idx.toNat = x) (hm : merge x l.mask l.val ≠ x) :
    ∃ u e, RunsTo s u e ∧ e.length = 6 ∧ u.status = .ok ∧ u.result = merge x l.mask l.val ∧
      Served l u ⟨l.idx + 1, p.coef.write l.idx.toNat (merge x l.mask l.val)⟩ := by
  obtain ⟨t, ht, hstep, -, hruns₁⟩ := served_select h hc hn (n := .rd1) (.inl hs) (hs ▸ rfl)
  obtain ⟨t, ht, hstep, hnew, hruns₂⟩ := served_merge ht hc hn hstep hx hm
  obtain ⟨t, ht, hstep, hnew', hruns₃⟩ := served_select ht hc hn (n := .wr) (.inr (.inl hstep)) (hstep ▸ rfl)
  obtain ⟨t, ht, hstep, hruns₄⟩ := served_write ht hc hn hstep
  rw [hnew', hnew] at ht
  obtain ⟨t, ht, hstep, -, hruns₅⟩ := served_select ht hc hn (n := .rd2) (.inr (.inr hstep)) (hstep ▸ rfl)
  obtain ⟨u, hend, hu, hok, hresult⟩ := served_readBack ht hc hn hstep (Memory.read_write_same _ _ _ hwf)
  exact ⟨u, _, hruns₁ u _ (hruns₂ u _ (hruns₃ u _ (hruns₄ u _ (hruns₅ u _ hend)))), rfl, hok, hresult, hu⟩

end Served

theorem served_started {s : State} (hs : Quiet s) (href : Referenced s) (n i m v : BitVec 32) :
    Served (started s n i m v) (started s n i m v) s.responder :=
  ⟨running_started hs.2 n i m v, href, rfl⟩

/-- What one UPDATE with the reference responder does, from its start to its end. -/
theorem started_withReference {s : State} (hs : Quiet s) (href : Referenced s) (hc : s.cfg.wellFormed = true)
    (hwf : Memory.wf s.responder.coef = true) {n i m v : BitVec 32} (hn : n.setWidth 7 = s.cfg.coefNode) {x y : Coef}
    (hx : s.responder.coef.read (i.setWidth 8).toNat = x) (hy : merge x (m.setWidth 16) (v.setWidth 16) = y) :
    ∃ u e p, RunsTo (started s n i m v) u e ∧ e.length = (if y = x then 2 else 6) ∧ u.status = .ok ∧ u.result = y ∧
      Served (started s n i m v) u p ∧ Memory.wf p.coef = true ∧ p.coef.read (i.setWidth 8).toNat = y ∧
      ∀ j, j ≠ (i.setWidth 8).toNat → p.coef.read j = s.responder.coef.read j := by
  have hl := served_started hs href n i m v
  by_cases hm : y = x
  · obtain ⟨u, a, hruns, hu, hok, hresult⟩ := served_update_skip hl hc hn rfl hx (hy.trans hm)
    exact ⟨u, _, _, hruns, (if_pos hm).symm, hok, hresult.trans hm.symm, hu, hwf, hx.trans hm.symm, fun j _ => rfl⟩
  · obtain ⟨u, e, hruns, hlength, hok, hresult, hu⟩ := served_update_write hl hc hn rfl hwf hx (hy ▸ hm)
    have hlt : (i.setWidth 8).toNat < 256 := (i.setWidth 8).isLt
    refine ⟨u, e, _, hruns, hlength.trans (if_neg hm).symm, hok, hresult.trans hy, hu, Memory.wf_write _ _ _ hlt hwf,
      (Memory.read_write_same _ _ _ hwf).trans hy, fun j hj => Memory.read_write_other _ _ _ _ hj⟩

theorem updResult_of_ok {s : State} (hdone : s.done = true) (hok : s.status = .ok) : s.updResult = some s.result :=
  if_pos ⟨hdone, hok⟩

/-- Settles O39: the merge, written or already there, is what the coefficient holds at the end. -/
theorem updateWithReference : Obligations.UpdateWithReference := by
  intro s n i m v hs href hc hwf hn k old merged
  have hk : (i.setWidth 8).toNat = k := BitVec.toNat_setWidth _ _
  obtain ⟨u, e, p, hruns, hlength, hok, hresult, hu, -, hsame, hother⟩ :=
    started_withReference hs href hc hwf (m := m) (v := v) (y := merged) hn (congrArg _ hk) rfl
  have hle : e.length ≤ 6 := by rw [hlength]; split <;> omega
  have hrun := hruns.run_of_le hle
  obtain ⟨-, ⟨hidle, -⟩, hdone, hhistory⟩ := hruns
  rw [hk] at hsame hother
  rw [← hu.responder] at hsame hother
  refine ⟨_, u, exec_update_started hs n i m v, hrun, hidle, ?_, hsame, fun j hj => hother j (by simpa using hj), ?_⟩
  · rw [updResult_of_ok hdone hok, hresult]
  · rw [hhistory, List.length_append, List.length_reverse, hlength, Nat.add_comm]
    rfl

/-- Settles O40: the second time the merge is what the coefficient holds. -/
theorem secondUpdateSendsNoWrite : Obligations.SecondUpdateSendsNoWrite := by
  intro s n i m v hs href hc hwf hn
  obtain ⟨u, e, p, hruns, hlength, hok, hresult, hu, -, hsame, -⟩ :=
    started_withReference (i := i) (m := m) (v := v) hs href hc hwf hn rfl rfl
  have hle : e.length ≤ 6 := by rw [hlength]; split <;> omega
  have hrun := hruns.run_of_le hle
  obtain ⟨-, hquiet, hdone, -⟩ := hruns
  have hcfg : u.cfg = s.cfg := hu.cfg
  rw [← hu.responder] at hsame
  obtain ⟨z, a, hruns', hz, hok', hresult'⟩ := served_update_skip (served_started hquiet hu.referenced n i m v)
    (hcfg ▸ hc) (hn.trans (congrArg Params.coefNode hcfg).symm) rfl hsame (merge_merge _ _ _)
  have hrun' := hruns'.run_of_le (k := 6) (by simp)
  obtain ⟨-, -, hdone', hhistory⟩ := hruns'
  have hvalid := updResult_of_ok hdone' hok'
  refine ⟨_, u, _, z, exec_update_started hs n i m v, hrun, exec_update_started hquiet n i m v, hrun', ?_, ?_,
    fun j _ => by rw [hz.responder], ?_⟩
  · rw [hvalid, updResult_of_ok hdone hok, hresult', hresult]
  · rw [hvalid]; rfl
  · rw [hhistory]
    simp [started, hcfg, hn]

/-! ### The two false variants -/

/-- The reference responder on an open channel, every coefficient zero. -/
def zeroCoefs : State :=
  { State.reset with cfg := { Params.defaults with farEnd := .reference }, channel := .opened }

/-- The same, with the sixth answer replaced: a test's read-back (R102). -/
def zeroCoefsMisread : State :=
  { zeroCoefs with replaced := [none, none, none, none, none, some (.resp 0x00000007#32)] }

/-- Refutes O46: writing one bit of a coefficient that is zero takes six exchanges. -/
theorem not_updateSendsAtMostFour : ¬ Obligations.UpdateSendsAtMostFour := by
  intro h
  have hfour := h zeroCoefs _ 0x20#32 0x4F#32 0x0001#32 0x0001#32 ⟨rfl, rfl⟩ ⟨rfl, rfl, rfl⟩ (by decide) rfl
  exact absurd hfour (by decide)

/-- Refutes O47: the merge is 1 and the replaced read-back is 7. -/
theorem not_okMeansResultIsNew : ¬ Obligations.OkMeansResultIsNew := by
  intro h
  have hnew := h zeroCoefsMisread _ 0x20#32 0x4F#32 0x0001#32 0x0001#32 ⟨rfl, rfl⟩ rfl (by decide) rfl rfl
  exact absurd hnew (by decide)

end Sys2Proof.Machine
